-- ==== Sys2Proof/Word.lean ====
section
/-! DEFINITION. The word types of the block: 64-bit words (R4) and the containers of POSW-bit registers (R5). -/

namespace Sys2Proof

/-- A 64-bit word of the word array (R4, W = 64). -/
abbrev Word := BitVec 64

/-- A POSW-bit value (a position, a count, a host data word), POSW being 32 or 64 (R5). It is held in the low POSW bits
of a 64-bit container; every operation that produces one cuts its result to POSW bits (`Machine.trunc`). -/
abbrev RegVal := BitVec 64

/-- An index of a bit inside a word, 0 to 63 (R4, IDXW = 6). -/
abbrev BitIdx := BitVec 6

end Sys2Proof
end

