-- ==== Sys2Proof/Config.lean ====
section
/-! DEFINITION. The implementation parameters POSW and NMAX (R5, R6). They do not change while the block runs. -/

namespace Sys2Proof

/-- The two widths a position may have (R5). -/
inductive Posw where
  | w32
  | w64
deriving DecidableEq, Repr

/-- POSW as a number of bits (R5). -/
def Posw.bits : Posw → Nat
  | .w32 => 32
  | .w64 => 64

/-- The implementation parameters of a block. DESIGN CHOICE (log entry 1), safe: the parameters the spec leaves open (D9, D10)
are a record of the state that no step writes, so that one step function covers every implementation. -/
structure Config where
  /-- POSW, the width of a position, of the cardinality and of every host data register (R5). -/
  posw : Posw
  /-- NMAX, the largest word-array length the block accepts (R6). -/
  nmax : Nat
deriving DecidableEq, Repr

/-- The largest NMAX that R6 allows, `2^(POSW-7) - 1`. -/
def Config.nmaxBound (p : Posw) : Nat := 2 ^ (p.bits - 7) - 1

/-- The constraint of R6 on the parameters: `1 <= NMAX <= 2^(POSW-7) - 1`. -/
abbrev Config.wf (c : Config) : Prop := 1 ≤ c.nmax ∧ c.nmax ≤ Config.nmaxBound c.posw

/-- The defaults of R5 and R6: POSW = 32, NMAX = 33554431. -/
def Config.default : Config := { posw := .w32, nmax := 33554431 }

/-- The default NMAX of R6 for POSW = 64. -/
def Config.default64 : Config := { posw := .w64, nmax := 144115188075855871 }

end Sys2Proof
end

