-- ==== Sys2Proof/Syntax.lean ====
section
/-! DEFINITION. The operations of the block, one constructor per row of spec/opcode_table.json, and the three formats they
are encoded in (R60, R61, R66). The block runs no program (R17): its operations are host register accesses (REG), host
commands (CMD) and the scanner's micro-operations (UOP). -/

namespace Sys2Proof

/-- One operation of the block. Bits an encoding ignores are no operands (log entry 11). -/
inductive Instr where
  /-- RD: host read of register `a` (R121). -/
  | rd (a : BitVec 3)
  /-- WR.CTRL: write CTRL (R122). -/
  | wrCtrl (d : RegVal)
  /-- WR.CMD: issue the command `d[1:0]` (R126). -/
  | wrCmd (d : RegVal)
  /-- WR.STATUS: ignored (R125). -/
  | wrStatus (d : RegVal)
  /-- WR.NWORDS: write NWORDS (R123). -/
  | wrNwords (d : RegVal)
  /-- WR.CAP: write CAP (R124). -/
  | wrCap (d : RegVal)
  /-- WR.CARD: ignored (R125). -/
  | wrCard (d : RegVal)
  /-- WR.ERRCODE: ignored (R125). -/
  | wrErrcode (d : RegVal)
  /-- WR.RSV7: ignored (R125). -/
  | wrRsv7 (d : RegVal)
  /-- NOP (R127). -/
  | nop
  /-- START: begin a decode (R128). -/
  | start
  /-- CLEAR: acknowledge a result or an error (R129). -/
  | clear
  /-- CMD.RSV3: the reserved command, ignored (R130). -/
  | cmdRsv3
  /-- U.FETCH: load the next word (R100). -/
  | uFetch
  /-- U.FINISH: all words done (R101). -/
  | uFinish
  /-- U.SKIP: go to the next word (R102). -/
  | uSkip
  /-- U.EMIT.TZC: emit one position by the trailing-zero count (R103). -/
  | uEmitTzc
  /-- U.EMIT.LSB: emit one position by lowest-set-bit isolation (R104). -/
  | uEmitLsb
  /-- U.TRAP.CAP: a position is due but the buffer is full (R105). -/
  | uTrapCap
  /-- U.HOLD: the scanner does nothing (R106). -/
  | uHold
deriving DecidableEq, Repr

/-- The three formats of 30_encoding.md. -/
inductive Format where
  | reg
  | cmd
  | uop
deriving DecidableEq, Repr

/-- What the block decodes: a transaction code T with its data (R60), the data of a WR.CMD (R61), or a dispatch
vector D (R66). -/
inductive Code where
  | reg (t : BitVec 4) (d : RegVal)
  | cmd (d : RegVal)
  | uop (dv : BitVec 7)
deriving DecidableEq, Repr

/-- One row of spec/opcode_table.json: a code of this format is the row's when its bits under `mask` are `pattern`. -/
structure OpRow where
  format : Format
  width : Nat
  pattern : BitVec 8
  mask : BitVec 8
deriving DecidableEq, Repr

/-- Why a code is rejected: no row of R67 matches the dispatch vector (its ST field is `110` or `111`, codes that ST
never takes, R64). -/
inductive DecodeError where
  | noDispatchRow (dv : BitVec 7)
deriving DecidableEq, Repr

end Sys2Proof
end

