-- ==== Sys2Proof/WellFormed.lean ====
section
/-! DEFINITION. Which instructions a block with given parameters can be presented: host data has POSW bits (R60). -/

namespace Sys2Proof

/-- The value fits the POSW data lines of the port (R60, R19). -/
def dataFits (c : Config) (d : RegVal) : Bool := decide (d.toNat < 2 ^ c.posw.bits)

/-- An instruction is well formed when its host data, if it has any, is a POSW-bit value. Register numbers have three
bits by their type. -/
def Instr.wf (c : Config) : Instr → Bool
  | .rd _ => true
  | .wrCtrl d => dataFits c d
  | .wrCmd d => dataFits c d
  | .wrStatus d => dataFits c d
  | .wrNwords d => dataFits c d
  | .wrCap d => dataFits c d
  | .wrCard d => dataFits c d
  | .wrErrcode d => dataFits c d
  | .wrRsv7 d => dataFits c d
  | .nop => true
  | .start => true
  | .clear => true
  | .cmdRsv3 => true
  | .uFetch => true
  | .uFinish => true
  | .uSkip => true
  | .uEmitTzc => true
  | .uEmitLsb => true
  | .uTrapCap => true
  | .uHold => true

end Sys2Proof
end

