-- ==== Sys2Proof/Decode.lean ====
section
/-! DEFINITION. The decoder of the three formats (R60, R61, R67), total, rejecting by name, and the encoder. -/

namespace Sys2Proof

/-- The row of spec/opcode_table.json an instruction belongs to (R60, R61, R67). -/
def opcodeRow : Instr → OpRow
  | .rd _ => ⟨.reg, 4, 0x0, 0x8⟩
  | .wrCtrl _ => ⟨.reg, 4, 0x8, 0xF⟩
  | .wrCmd _ => ⟨.reg, 4, 0x9, 0xF⟩
  | .wrStatus _ => ⟨.reg, 4, 0xA, 0xF⟩
  | .wrNwords _ => ⟨.reg, 4, 0xB, 0xF⟩
  | .wrCap _ => ⟨.reg, 4, 0xC, 0xF⟩
  | .wrCard _ => ⟨.reg, 4, 0xD, 0xF⟩
  | .wrErrcode _ => ⟨.reg, 4, 0xE, 0xF⟩
  | .wrRsv7 _ => ⟨.reg, 4, 0xF, 0xF⟩
  | .nop => ⟨.cmd, 2, 0x0, 0x3⟩
  | .start => ⟨.cmd, 2, 0x1, 0x3⟩
  | .clear => ⟨.cmd, 2, 0x2, 0x3⟩
  | .cmdRsv3 => ⟨.cmd, 2, 0x3, 0x3⟩
  | .uFetch => ⟨.uop, 7, 0x40, 0x78⟩
  | .uFinish => ⟨.uop, 7, 0x48, 0x78⟩
  | .uSkip => ⟨.uop, 7, 0x54, 0x74⟩
  | .uEmitTzc => ⟨.uop, 7, 0x50, 0x77⟩
  | .uEmitLsb => ⟨.uop, 7, 0x51, 0x77⟩
  | .uTrapCap => ⟨.uop, 7, 0x52, 0x76⟩
  | .uHold => ⟨.uop, 7, 0x00, 0x40⟩

/-- The format a code is presented in. -/
def Code.format : Code → Format
  | .reg _ _ => .reg
  | .cmd _ => .cmd
  | .uop _ => .uop

/-- The bits of a code the rows look at: T of a transaction, `d[1:0]` of a command, D of a dispatch. -/
def Code.opBits : Code → BitVec 8
  | .reg t _ => t.setWidth 8
  | .cmd d => (d.extractLsb' 0 2).setWidth 8
  | .uop dv => dv.setWidth 8

/-- A code belongs to a row when the formats agree and `(bits & mask) = pattern` (R67). -/
def Code.inRow (c : Code) (r : OpRow) : Bool :=
  decide (c.format = r.format) && decide (c.opBits &&& r.mask = r.pattern)

/-- `h_we`, bit 3 of the transaction code (R60). -/
def regWe (t : BitVec 4) : Bool := t.getLsbD 3

/-- `h_addr`, bits 2:0 of the transaction code (R60). -/
def regAddr (t : BitVec 4) : BitVec 3 := t.extractLsb' 0 3

/-- Format REG (R60): every one of the 16 transaction codes is defined. -/
def decodeReg (t : BitVec 4) (d : RegVal) : Instr :=
  if regWe t then
    match (regAddr t).toNat with
    | 0 => .wrCtrl d
    | 1 => .wrCmd d
    | 2 => .wrStatus d
    | 3 => .wrNwords d
    | 4 => .wrCap d
    | 5 => .wrCard d
    | 6 => .wrErrcode d
    | _ => .wrRsv7 d
  else .rd (regAddr t)

/-- Format CMD (R61): `d[1:0]` alone is looked at. -/
def decodeCmd (d : RegVal) : Instr :=
  match (d.extractLsb' 0 2).toNat with
  | 0 => .nop
  | 1 => .start
  | 2 => .clear
  | _ => .cmdRsv3

/-- The seven micro-operations, in the order of the rows of R67. -/
def uops : List Instr := [.uFetch, .uFinish, .uSkip, .uEmitTzc, .uEmitLsb, .uTrapCap, .uHold]

/-- Format UOP: the row of R67 that the dispatch vector selects. -/
def decodeUop (dv : BitVec 7) : Except DecodeError Instr :=
  match uops.find? (fun u => (Code.uop dv).inRow (opcodeRow u)) with
  | some u => .ok u
  | none => .error (.noDispatchRow dv)

/-- The decoder of the block, total on every code of every format. -/
def decode : Code → Except DecodeError Instr
  | .reg t d => .ok (decodeReg t d)
  | .cmd d => .ok (decodeCmd d)
  | .uop dv => decodeUop dv

/-- The transaction code `{h_we, h_addr}` (R60). -/
def regCode (we : Bool) (a : BitVec 3) : BitVec 4 := BitVec.ofBool we ++ a

/-- The encoder: the code of an instruction, from the tables of R60, R61 and R67, with every bit that the encoding
ignores at 0 (log entry 11). -/
def encode : Instr → Code
  | .rd a => .reg (regCode false a) 0
  | .wrCtrl d => .reg (regCode true 0) d
  | .wrCmd d => .reg (regCode true 1) d
  | .wrStatus d => .reg (regCode true 2) d
  | .wrNwords d => .reg (regCode true 3) d
  | .wrCap d => .reg (regCode true 4) d
  | .wrCard d => .reg (regCode true 5) d
  | .wrErrcode d => .reg (regCode true 6) d
  | .wrRsv7 d => .reg (regCode true 7) d
  | .nop => .cmd 0
  | .start => .cmd 1
  | .clear => .cmd 2
  | .cmdRsv3 => .cmd 3
  | .uFetch => .uop 0x40
  | .uFinish => .uop 0x48
  | .uSkip => .uop 0x54
  | .uEmitTzc => .uop 0x50
  | .uEmitLsb => .uop 0x51
  | .uTrapCap => .uop 0x52
  | .uHold => .uop 0x00

/-- The code that a byte of the opcode table stands for. DESIGN CHOICE (log entry 10), safe: the rows of the three formats
overlap as bytes, and the table's byte does not say its format; 40H to 7FH are dispatch vectors, 1 to 3 are commands, the
other bytes below 10H are transaction codes with data 0, and 10H to 3FH are dispatch vectors again. The machine itself never
meets this ambiguity: each of its three decoders has its own input (R60, R61, R66). -/
def codeOfTableByte (w : Nat) : Option Code :=
  if 128 ≤ w then none
  else if 64 ≤ w then some (.uop (BitVec.ofNat 7 w))
  else if 1 ≤ w ∧ w ≤ 3 then some (.cmd (BitVec.ofNat 64 w))
  else if w < 16 then some (.reg (BitVec.ofNat 4 w) 0)
  else some (.uop (BitVec.ofNat 7 w))

/-- The code an instruction of `nbits` bits stands for: the formats have their own widths (2, 4 and 7 bits); a byte is
read by `codeOfTableByte`; anything longer is a transaction, T in bits 3:0 and its data above (R60). -/
def codeOfTableWord (nbits w : Nat) : Option Code :=
  match nbits with
  | 2 => if w < 4 then some (.cmd (BitVec.ofNat 64 w)) else none
  | 4 => if w < 16 then some (.reg (BitVec.ofNat 4 w) 0) else none
  | 7 => if w < 128 then some (.uop (BitVec.ofNat 7 w)) else none
  | n => if n ≤ 8 then codeOfTableByte w
         else if w < 2 ^ 68 then some (.reg (BitVec.ofNat 4 (w % 16)) (BitVec.ofNat 64 (w / 16)))
         else none

/-- The instruction the decoder reads from a word numbered as spec/opcode_table.json numbers its bits. -/
def decodeTableWord (nbits w : Nat) : Option Instr :=
  match codeOfTableWord nbits w with
  | some c => match decode c with
    | .ok i => some i
    | .error _ => none
  | none => none

end Sys2Proof
end

