-- ==== Sys2Proof/Machine/State.lean ====
section
/-! DEFINITION. The state of the block (10_state.md), the pins the host drives, the reasons a step can stop, and the state
after reset. State is plain data. -/

namespace Sys2Proof.Machine

/-- The five states of the scanner (R10). The three codes that ST never takes are not represented, as R64 allows. -/
inductive St where
  /-- No decode has run since reset or the last CLEAR. -/
  | idle
  /-- The last decode finished without error. -/
  | done
  /-- The last START or decode raised an error. -/
  | fault
  /-- About to read word K or to finish. -/
  | fetch
  /-- BITSET holds the bits of word K not emitted yet. -/
  | scan
deriving DecidableEq, Repr

/-- The two errors the block raises (R160). They are states of the machine, not stops of the model. -/
inductive HwError where
  | capacityError
  | invalidInputError
deriving DecidableEq, Repr

/-- The pins the host drives in one step: the reset input (R190) and the register port (R60). -/
structure HostIn where
  /-- `rst`, synchronous and active high (R190). -/
  rst : Bool
  /-- `h_valid`: an access is presented. -/
  hValid : Bool
  /-- `h_we`: the access is a write. -/
  hWe : Bool
  /-- `h_addr`: the register number. -/
  hAddr : BitVec 3
  /-- `h_wdata`, of which the low POSW bits are lines of the port. -/
  hWdata : RegVal
deriving DecidableEq, Repr

/-- A memory addressed by element index (R40, R41): the elements it has, as pairs of index and element. An index that is
not listed has no value (log entries 6 and 7). -/
abbrev Memory := List (Nat × Word)

/-- The canonical form of a memory: strictly rising indices. An unlisted index has no value, so no entry can equal it. -/
abbrev Memory.wf (m : Memory) : Prop := m.Pairwise (fun p q => p.1 < q.1)

/-- Why the model stops. Raised by meanings only; both are safe (nothing is claimed of the machine afterwards). -/
inductive Fault where
  /-- Raised by U.EMIT.TZC and U.EMIT.LSB when the write's index CNT is not below CAP: the model-level fault `UnsafeOverflow`
  that R154 asks for (U1). Safe. -/
  | unsafeOverflow
  /-- Raised by U.FETCH when the word memory has no element K: the host broke R195, and U15 asks for a fault on a read
  outside the domain. Safe. -/
  | wordArrayTooShort
deriving DecidableEq, Repr

/-- Why the model has no meaning for a step. -/
inductive Refusal where
  /-- Raised by `exec` for an instruction without a meaning: no arm is one. Safe. -/
  | notModelled (mnemonic : String)
  /-- Raised by `step` when no row of R67 matches the dispatch vector: never (R107). Safe. -/
  | noDispatchRow (dv : BitVec 7)
deriving DecidableEq, Repr

/-- The state of the block, its two memories, and the host's part of the interface. -/
structure State where
  /-- POSW and NMAX (R5, R6); no step writes it (log entry 1). -/
  cfg : Config
  /-- ST (R10). -/
  st : St
  /-- K, the index of the word being scanned (R11). -/
  k : RegVal
  /-- BASE, the position accumulator (R12). -/
  base : RegVal
  /-- BITSET, the bits of word K not emitted yet (R13). -/
  bitset : Word
  /-- CNT, the number of positions written; read as CARD (R14, R27). -/
  cnt : RegVal
  /-- ERRCODE (R15). -/
  errcode : BitVec 2
  /-- CTRL.STRAT: false is `trailing_zero_count`, true `lowest_bit_isolation` (R20). -/
  strat : Bool
  /-- CTRL.CHK: true is the checked form (R21). -/
  chk : Bool
  /-- NWORDS (R22). -/
  nwords : RegVal
  /-- CAP (R23). -/
  cap : RegVal
  /-- WMEM, the word memory (R24). -/
  wmem : Memory
  /-- OMEM, the output memory (R25). -/
  omem : Memory
  /-- The pins of the coming steps, this step's first; the model's own (log entry 3). -/
  script : List HostIn
  /-- The value `h_rdata` had in the last step (R60, R121); that it is kept is the model's own (log entry 4). -/
  hRdata : RegVal
deriving DecidableEq, Repr

/-- The state right after reset of a block with given parameters (R31, R191). The memories list nothing: their content is
the host's and reset does not touch it (log entries 6 and 7). No host input is waiting (log entry 3). -/
def State.resetOf (c : Config) : State :=
  { cfg := c, st := .idle, k := 0, base := 0, bitset := 0, cnt := 0, errcode := 0, strat := false, chk := true,
    nwords := 0, cap := 0, wmem := [], omem := [], script := [], hRdata := 0 }

/-- The machine right after reset, with the spec's default parameters (R5, R6, R31, R191). -/
def State.reset : State := State.resetOf Config.default

end Sys2Proof.Machine
end

