-- ==== Sys2Proof/Machine/Datapath.lean ====
section
/-! DEFINITION. The combinational units of 40_datapath.md (R80 to R93) and the cut of a result to POSW bits. -/

namespace Sys2Proof.Machine

/-- The place of the lowest set bit among the bits from `n` upwards, `fuel` of them; `n + fuel` when there is none. -/
def lowestSetFrom : Nat → Nat → Word → Nat
  | 0, n, _ => n
  | fuel + 1, n, x => if x.getLsbD n then n else lowestSetFrom fuel (n + 1) x

/-- `ctz64` (R80): the least n with `x[n] = 1`, and 64 for 0. -/
def ctz64 (x : Word) : BitVec 7 := BitVec.ofNat 7 (lowestSetFrom 64 0 x)

/-- `penc` (R81), the priority encoder: the pair (valid, index). -/
def penc (x : Word) : Bool × BitIdx := (decide (x ≠ 0), (ctz64 x).extractLsb' 0 6)

/-- `onehot64` (R82): the word with only bit `n` set. -/
def onehot64 (n : BitIdx) : Word := 1#64 <<< n.toNat

/-- `neg64` (00_scope.md R33): `(2^64 - a) mod 2^64`. -/
def neg64 (x : Word) : Word := -x

/-- `iso64` (R83): the lowest set bit of the word. -/
def iso64 (x : Word) : Word := x &&& neg64 x

/-- `below64` (R84): `(t - 1) mod 2^64`. -/
def below64 (t : Word) : Word := t - 1

/-- How many of the lowest `n` bits are set. -/
def onesBelow : Nat → Word → Nat
  | 0, _ => 0
  | n + 1, x => onesBelow n x + (x.getLsbD n).toNat

/-- `popcount64` (R85): `x[0] + x[1] + ... + x[63]`. -/
def popcount64 (x : Word) : BitVec 7 := BitVec.ofNat 7 (onesBelow 64 x)

/-- `idx_mux` (R88), the index half of the output mux. -/
def idxMux (strat : Bool) (x : Word) : BitIdx :=
  if strat then (popcount64 (below64 (iso64 x))).extractLsb' 0 6 else (ctz64 x).extractLsb' 0 6

/-- `clr_mux` (R89), the clear-mask half of the output mux. -/
def clrMux (strat : Bool) (x : Word) : Word :=
  if strat then iso64 x else onehot64 ((ctz64 x).extractLsb' 0 6)

/-- The low POSW bits of a value, zero-extended to the container: arithmetic modulo `2^POSW` (R92). -/
def trunc (c : Config) (v : RegVal) : RegVal :=
  match c.posw with
  | .w32 => v &&& 0xFFFFFFFF#64
  | .w64 => v

/-- Addition modulo `2^POSW` (R92, 00_scope.md R33). -/
def addPosw (c : Config) (a b : RegVal) : RegVal := trunc c (a + b)

/-- `pos_add` (R90), the position adder. -/
def posAdd (c : Config) (base : RegVal) (idx : BitIdx) : RegVal := addPosw c base (idx.setWidth 64)

/-- The number of zero bits from bit `n - 1` downwards before the first set bit. -/
def zerosDown : Nat → Word → Nat
  | 0, _ => 0
  | n + 1, x => if x.getLsbD n then 0 else zerosDown n x + 1

/-- `lzc64` (R91). Not architectural: no rule uses it, and the spec marks it as general knowledge. PRESUMED (log entry 17),
safe: no other definition of the model reads it. -/
def lzc64 (x : Word) : BitVec 7 := BitVec.ofNat 7 (zerosDown 64 x)

end Sys2Proof.Machine
end

