-- ==== Sys2Proof/Machine/Operands.lean ====
section
/-! DEFINITION. The operand forms of the three formats (R60, R61, R62, R68) and the values of the enumerations on the port
(R64, R65). -/

namespace Sys2Proof.Machine

/-- `d[0]` of a WR.CTRL, the new CTRL.STRAT (R62, R122). -/
def ctrlStrat (d : RegVal) : Bool := d.getLsbD 0

/-- `d[1]` of a WR.CTRL, the new CTRL.CHK (R62, R122). -/
def ctrlChk (d : RegVal) : Bool := d.getLsbD 1

/-- `d[1:0]` of a WR.CMD (R61). -/
def cmdCode (d : RegVal) : BitVec 2 := d.extractLsb' 0 2

/-- The state codes of R64. -/
def St.code : St → BitVec 3
  | .idle => 0b000
  | .done => 0b001
  | .fault => 0b010
  | .fetch => 0b100
  | .scan => 0b101

/-- The state a code of R64 names; the three codes that ST never takes name none. -/
def St.ofCode (c : BitVec 3) : Option St :=
  match c.toNat with
  | 0 => some .idle
  | 1 => some .done
  | 2 => some .fault
  | 4 => some .fetch
  | 5 => some .scan
  | _ => none

/-- The error codes of R65. -/
def HwError.code : HwError → BitVec 2
  | .capacityError => 1
  | .invalidInputError => 2

/-- The transaction code `T = {h_we, h_addr}` on the pins (R60). -/
def HostIn.code (p : HostIn) : BitVec 4 := regCode p.hWe p.hAddr

end Sys2Proof.Machine
end

