-- ==== Sys2Proof/Machine/Flags.lean ====
section
/-! DEFINITION. The one-bit predicates the dispatch reads (R18), the status bits and lines computed from ST (R26, R63, R171)
and the dispatch vector (R66). All are wires: functions of the registers, never stored. -/

namespace Sys2Proof.Machine

/-- BUSY: ST is FETCH or SCAN (R10, R18); also the line `busy` (R171). -/
def State.busy (s : State) : Bool := decide (s.st = .fetch) || decide (s.st = .scan)

/-- DONE: ST is DONE (R18); also the line `done` (R171). -/
def State.doneBit (s : State) : Bool := decide (s.st = .done)

/-- ERR: ST is FAULT (R18); also the line `err` (R171). -/
def State.errBit (s : State) : Bool := decide (s.st = .fault)

/-- `e` (end): `K >= NWORDS`, unsigned (R18). -/
def State.endPred (s : State) : Bool := decide (s.nwords.toNat ≤ s.k.toNat)

/-- `z` (zero): `BITSET = 0` (R18). -/
def State.zeroPred (s : State) : Bool := decide (s.bitset = 0)

/-- `f` (full): `CTRL.CHK = 1` and `CNT >= CAP`, unsigned (R18). -/
def State.fullPred (s : State) : Bool := s.chk && decide (s.cap.toNat ≤ s.cnt.toNat)

/-- STATUS (R26, R63): ST in bits 2:0, BUSY, DONE, ERR above, the rest 0. -/
def State.statusWord (s : State) : RegVal :=
  (BitVec.ofBool s.errBit ++ BitVec.ofBool s.doneBit ++ BitVec.ofBool s.busy ++ s.st.code).setWidth 64

/-- CTRL (R62): STRAT in bit 0, CHK in bit 1, the rest 0. -/
def State.ctrlWord (s : State) : RegVal := (BitVec.ofBool s.chk ++ BitVec.ofBool s.strat).setWidth 64

/-- The dispatch vector `D = {ST, e, z, f, s}` (R66). -/
def State.dispatch (s : State) : BitVec 7 :=
  s.st.code ++ BitVec.ofBool s.endPred ++ BitVec.ofBool s.zeroPred ++ BitVec.ofBool s.fullPred ++ BitVec.ofBool s.strat

end Sys2Proof.Machine
end

