-- ==== Sys2Proof/Machine/Ops.lean ====
section
/-! DEFINITION. The named operations over memory and registers: the two memory accesses (R35), the register reads (R121),
the register writes, raising an error (R36, R164) and returning from one (R168), and reset (R190). -/

namespace Sys2Proof.Machine

/-- The element at an index, none where the memory has none. -/
def Memory.read : Memory → Nat → Option Word
  | [], _ => none
  | (a, v) :: m, i => if a = i then some v else Memory.read m i

/-- Writes one element and leaves every other alone, keeping the indices strictly rising. -/
def Memory.write : Memory → Nat → Word → Memory
  | [], i, v => [(i, v)]
  | (a, w) :: m, i, v =>
    if i < a then (i, v) :: (a, w) :: m
    else if i = a then (i, v) :: m
    else (a, w) :: Memory.write m i v

/-- Register writes, one field group each. -/
def State.setSt (s : State) (v : St) : State := { s with st := v }
/-- Writes K, BASE, BITSET and CNT together (R34: all writes of a step land together). -/
def State.setScan (s : State) (k base : RegVal) (bitset : Word) (cnt : RegVal) : State :=
  { s with k := k, base := base, bitset := bitset, cnt := cnt }
/-- Writes ERRCODE (R15). -/
def State.setErrcode (s : State) (v : BitVec 2) : State := { s with errcode := v }
/-- Writes CTRL.STRAT and CTRL.CHK (R122). -/
def State.setCtrl (s : State) (strat chk : Bool) : State := { s with strat := strat, chk := chk }
/-- Writes NWORDS (R123). -/
def State.setNwords (s : State) (v : RegVal) : State := { s with nwords := v }
/-- Writes CAP (R124). -/
def State.setCap (s : State) (v : RegVal) : State := { s with cap := v }
/-- Drives the port output `h_rdata` (R60). -/
def State.setHRdata (s : State) (v : RegVal) : State := { s with hRdata := v }
/-- Replaces the output memory. -/
def State.setOmem (s : State) (m : Memory) : State := { s with omem := m }
/-- Replaces the word memory (the host's doing, never the block's: R40). -/
def State.setWmem (s : State) (m : Memory) : State := { s with wmem := m }
/-- Replaces the host's coming inputs. -/
def State.setScript (s : State) (l : List HostIn) : State := { s with script := l }

/-- `MemRead(k, 64)` (R35, R40). -/
def State.memRead (s : State) (k : RegVal) : Option Word := Memory.read s.wmem k.toNat

/-- `MemWrite(i, POSW, v)` (R35, R41). An index that is not below CAP lies outside the buffer the host set aside: no
state, the caller stops (R154). -/
def State.memWrite (s : State) (i v : RegVal) : Option State :=
  if i.toNat < s.cap.toNat then some (s.setOmem (Memory.write s.omem i.toNat v)) else none

/-- The value `x[a]` that a host read of register `a` returns (R121). -/
def State.readReg (s : State) (a : BitVec 3) : RegVal :=
  match a.toNat with
  | 0 => s.ctrlWord
  | 1 => 0
  | 2 => s.statusWord
  | 3 => s.nwords
  | 4 => s.cap
  | 5 => s.cnt
  | 6 => s.errcode.setWidth 64
  | _ => 0

/-- A host write takes effect only while the block is not busy; while busy it is ignored (R131). -/
def State.unlessBusy (s t : State) : State := if s.busy then s else t

/-- `K <- 0 ; BASE <- 0 ; BITSET <- 0 ; CNT <- 0` (R128, R129, R190). -/
def State.zeroScan (s : State) : State := s.setScan 0 0 0 0

/-- TAKING AN ERROR, `raise <Error>` (R36, R164): `ERRCODE <- code ; ST <- FAULT`, every other register keeps its value. No
handler, no vector, no saved context. -/
def State.raise (s : State) (e : HwError) : State := (s.setErrcode e.code).setSt .fault

/-- RETURNING FROM ONE (R129, R168): to IDLE, with ERRCODE and the scanner registers zeroed and the configuration kept. -/
def State.acknowledge (s : State) : State := (s.zeroScan.setErrcode 0).setSt .idle

/-- The beginning of a decode, `START` with a legal length (R128). -/
def State.beginDecode (s : State) : State := (s.zeroScan.setErrcode 0).setSt .fetch

/-- The effect of a reset step on the registers (R190); the memories keep their content. -/
def State.applyReset (s : State) : State :=
  ((s.acknowledge.setCtrl false true).setNwords 0).setCap 0

/-- Emits one position (R103, R104): writes `BASE + idx` at index CNT, clears the bits `clr` of BITSET by exclusive or, and
counts. Stops where the write would leave the buffer (R154). -/
def State.emit (s : State) (idx : BitIdx) (clr : Word) : Host.Outcome State Fault Refusal :=
  match s.memWrite s.cnt (posAdd s.cfg s.base idx) with
  | some t => .next (t.setScan s.k s.base (s.bitset ^^^ clr) (addPosw s.cfg s.cnt 1))
  | none => .fault .unsafeOverflow

end Sys2Proof.Machine
end

