-- ==== Sys2Proof/Machine/Command.lean ====
section
/-! DEFINITION. The host's commands, format CMD, and WR.CMD, which issues them (R126 to R131). -/

namespace Sys2Proof.Machine

/-- NOP (R127): no register changes. -/
def execNop (s : State) : Host.Outcome State Fault Refusal := .next s

/-- START (R128): a length above NMAX raises InvalidInputError with the scanner registers zeroed; any other begins a decode.
Ignored while busy (R131). -/
def execStart (s : State) : Host.Outcome State Fault Refusal :=
  .next (s.unlessBusy
    (if s.cfg.nmax < s.nwords.toNat then s.zeroScan.raise .invalidInputError else s.beginDecode))

/-- CLEAR (R129): to IDLE, ERRCODE and the scanner registers zeroed. Ignored while busy (R131). -/
def execClear (s : State) : Host.Outcome State Fault Refusal := .next (s.unlessBusy s.acknowledge)

/-- The reserved command (R130): same effect as NOP. -/
def execCmdRsv3 (s : State) : Host.Outcome State Fault Refusal := .next s

/-- WR.CMD (R126): the command `d[1:0]` acts in the step in which it is written; nothing is stored. Ignored while busy
(R131). -/
def execWrCmd (d : RegVal) (s : State) : Host.Outcome State Fault Refusal :=
  if s.busy then .next s
  else match (cmdCode d).toNat with
    | 0 => execNop s
    | 1 => execStart s
    | 2 => execClear s
    | _ => execCmdRsv3 s

end Sys2Proof.Machine
end

