-- ==== Sys2Proof/Machine/HostPort.lean ====
section
/-! DEFINITION. The host's register accesses, format REG, but for WR.CMD (R121 to R125). -/

namespace Sys2Proof.Machine

/-- RD (R121): answered in every state with the value before the step; no register changes. -/
def execRd (a : BitVec 3) (s : State) : Host.Outcome State Fault Refusal := .next (s.setHRdata (s.readReg a))

/-- WR.CTRL (R122): `CTRL.STRAT <- d[0] ; CTRL.CHK <- d[1]`; ignored while busy (R131). -/
def execWrCtrl (d : RegVal) (s : State) : Host.Outcome State Fault Refusal :=
  .next (s.unlessBusy (s.setCtrl (ctrlStrat d) (ctrlChk d)))

/-- WR.STATUS (R125): ignored, STATUS is read-only. -/
def execWrStatus (_d : RegVal) (s : State) : Host.Outcome State Fault Refusal := .next s

/-- WR.NWORDS (R123): `NWORDS <- d`, all POSW bits, whatever the value; ignored while busy (R131). -/
def execWrNwords (d : RegVal) (s : State) : Host.Outcome State Fault Refusal :=
  .next (s.unlessBusy (s.setNwords (trunc s.cfg d)))

/-- WR.CAP (R124): `CAP <- d`, all POSW bits; ignored while busy (R131). -/
def execWrCap (d : RegVal) (s : State) : Host.Outcome State Fault Refusal :=
  .next (s.unlessBusy (s.setCap (trunc s.cfg d)))

/-- WR.CARD (R125): ignored, CARD is read-only. -/
def execWrCard (_d : RegVal) (s : State) : Host.Outcome State Fault Refusal := .next s

/-- WR.ERRCODE (R125): ignored, ERRCODE is read-only. -/
def execWrErrcode (_d : RegVal) (s : State) : Host.Outcome State Fault Refusal := .next s

/-- WR.RSV7 (R125): ignored, register 7 is reserved. -/
def execWrRsv7 (_d : RegVal) (s : State) : Host.Outcome State Fault Refusal := .next s

end Sys2Proof.Machine
end

