-- ==== Sys2Proof/Machine/Scanner.lean ====
section
/-! DEFINITION. The scanner's micro-operations, format UOP (R100 to R106). Each is the effect the rule gives to a step whose
dispatch vector selects it; which one a step runs is decided by the dispatch alone (log entry 13). -/

namespace Sys2Proof.Machine

/-- U.FETCH (R100): `BITSET <- MemRead(K, 64) ; ST <- SCAN`. A word memory without an element K stops the model (U15). -/
def execUFetch (s : State) : Host.Outcome State Fault Refusal :=
  match s.memRead s.k with
  | some w => .next ((s.setScan s.k s.base w s.cnt).setSt .scan)
  | none => .fault .wordArrayTooShort

/-- U.FINISH (R101): `ST <- DONE`; CNT is now the cardinality. -/
def execUFinish (s : State) : Host.Outcome State Fault Refusal := .next (s.setSt .done)

/-- U.SKIP (R102): `K <- K + 1 ; BASE <- BASE + 64 ; ST <- FETCH`. -/
def execUSkip (s : State) : Host.Outcome State Fault Refusal :=
  .next ((s.setScan (addPosw s.cfg s.k 1) (addPosw s.cfg s.base 64) s.bitset s.cnt).setSt .fetch)

/-- U.EMIT.TZC (R103): `ntz = ctz64(BITSET)`, emit `BASE + ntz`, clear `onehot64(ntz)`. -/
def execUEmitTzc (s : State) : Host.Outcome State Fault Refusal :=
  s.emit ((ctz64 s.bitset).extractLsb' 0 6) (onehot64 ((ctz64 s.bitset).extractLsb' 0 6))

/-- U.EMIT.LSB (R104): `t = iso64(BITSET)`, `i = popcount64(below64(t))`, emit `BASE + i`, clear `t`. -/
def execUEmitLsb (s : State) : Host.Outcome State Fault Refusal :=
  s.emit ((popcount64 (below64 (iso64 s.bitset))).extractLsb' 0 6) (iso64 s.bitset)

/-- U.TRAP.CAP (R105): `raise CapacityError`; K, BASE, BITSET and CNT keep their values. -/
def execUTrapCap (s : State) : Host.Outcome State Fault Refusal := .next (s.raise .capacityError)

/-- U.HOLD (R106): the scanner does nothing. -/
def execUHold (s : State) : Host.Outcome State Fault Refusal := .next s

end Sys2Proof.Machine
end

