-- ==== Sys2Proof/Machine/Dispatch.lean ====
section
/-! DEFINITION. One arm per instruction, each one call of its meaning. -/

namespace Sys2Proof.Machine

def exec (i : Instr) (s : State) : Host.Outcome State Fault Refusal :=
  match i with
  | .rd a => Sys2Proof.Machine.execRd a s
  | .wrCtrl d => Sys2Proof.Machine.execWrCtrl d s
  | .wrCmd d => Sys2Proof.Machine.execWrCmd d s
  | .wrStatus d => Sys2Proof.Machine.execWrStatus d s
  | .wrNwords d => Sys2Proof.Machine.execWrNwords d s
  | .wrCap d => Sys2Proof.Machine.execWrCap d s
  | .wrCard d => Sys2Proof.Machine.execWrCard d s
  | .wrErrcode d => Sys2Proof.Machine.execWrErrcode d s
  | .wrRsv7 d => Sys2Proof.Machine.execWrRsv7 d s
  | .nop => Sys2Proof.Machine.execNop s
  | .start => Sys2Proof.Machine.execStart s
  | .clear => Sys2Proof.Machine.execClear s
  | .cmdRsv3 => Sys2Proof.Machine.execCmdRsv3 s
  | .uFetch => Sys2Proof.Machine.execUFetch s
  | .uFinish => Sys2Proof.Machine.execUFinish s
  | .uSkip => Sys2Proof.Machine.execUSkip s
  | .uEmitTzc => Sys2Proof.Machine.execUEmitTzc s
  | .uEmitLsb => Sys2Proof.Machine.execUEmitLsb s
  | .uTrapCap => Sys2Proof.Machine.execUTrapCap s
  | .uHold => Sys2Proof.Machine.execUHold s

end Sys2Proof.Machine
end

