-- ==== Sys2Proof/Machine/Script.lean ====
section
/-! DEFINITION. The host script: the four kinds of lines of R71 as pin settings, and the pseudo-instructions of R72 as lists
of lines. -/

namespace Sys2Proof.Machine

/-- `idle`: a step with no host access (R71). -/
def HostIn.idle : HostIn := { rst := false, hValid := false, hWe := false, hAddr := 0, hWdata := 0 }

/-- `reset`: a step with `rst = 1` (R71). -/
def HostIn.reset : HostIn := { rst := true, hValid := false, hWe := false, hAddr := 0, hWdata := 0 }

/-- `rd x[a]` (R71). -/
def HostIn.rd (a : BitVec 3) : HostIn := { rst := false, hValid := true, hWe := false, hAddr := a, hWdata := 0 }

/-- `wr x[a], d` (R71). -/
def HostIn.wr (a : BitVec 3) (d : RegVal) : HostIn := { rst := false, hValid := true, hWe := true, hAddr := a, hWdata := d }

/-- The pins of a transaction given by its code T and its data (R60). -/
def HostIn.ofCode (t : BitVec 4) (d : RegVal) : HostIn :=
  { rst := false, hValid := true, hWe := regWe t, hAddr := regAddr t, hWdata := d }

/-- The register numbers of R19, for the lines above. -/
def regCTRL : BitVec 3 := 0
/-- Register 1, CMD. -/
def regCMD : BitVec 3 := 1
/-- Register 2, STATUS. -/
def regSTATUS : BitVec 3 := 2
/-- Register 3, NWORDS. -/
def regNWORDS : BitVec 3 := 3
/-- Register 4, CAP. -/
def regCAP : BitVec 3 := 4
/-- Register 5, CARD. -/
def regCARD : BitVec 3 := 5
/-- Register 6, ERRCODE. -/
def regERRCODE : BitVec 3 := 6
/-- Register 7, reserved. -/
def regRSV7 : BitVec 3 := 7

/-- `start` (R72). -/
def scriptStart : List HostIn := [HostIn.wr regCMD 1]

/-- `clear` (R72). -/
def scriptClear : List HostIn := [HostIn.wr regCMD 2]

/-- `nop` (R72). -/
def scriptNop : List HostIn := [HostIn.wr regCMD 0]

/-- `idle <n>` (R72). -/
def scriptIdle (n : Nat) : List HostIn := List.replicate n HostIn.idle

/-- `config <strat>, <chk>, <n>, <cap>` (R72). -/
def scriptConfig (strat chk n cap : RegVal) : List HostIn :=
  [HostIn.wr regCTRL ((chk <<< 1) + strat), HostIn.wr regNWORDS n, HostIn.wr regCAP cap]

/-- `poll` (R72) cut to `n` reads: `rd STATUS` repeated; the host stops at the first value with bit 3 = 0. -/
def scriptPoll (n : Nat) : List HostIn := List.replicate n (HostIn.rd regSTATUS)

/-- `decode` (R72), with the `n` idle lines that its `run` takes (R149 to R151). -/
def scriptDecode (n : Nat) : List HostIn :=
  scriptStart ++ scriptIdle n ++ [HostIn.rd regSTATUS, HostIn.rd regCARD]

end Sys2Proof.Machine
end

