-- ==== Sys2Proof/Machine/Fetch.lean ====
section
/-! DEFINITION. What a step is presented with (R9, R60, R66): the pins of the step, the instruction on the host port, the
micro-operation the dispatch vector selects; and how a word of the opcode table is put where the next step finds it. -/

namespace Sys2Proof.Machine

/-- The pins of this step: the first entry of the script, idle pins when it is exhausted (log entry 3). -/
def State.hostNow (s : State) : HostIn :=
  match s.script with
  | [] => HostIn.idle
  | p :: _ => p

/-- The state with this step's pins consumed and `h_rdata` at 0, its value in a step without a read (R60). -/
def State.tick (s : State) : State := (s.setScript s.script.tail).setHRdata 0

/-- The instruction on the host port: none when `h_valid = 0` (R60). The data lines are POSW wide. -/
def State.hostInstr (s : State) : Option Instr :=
  if s.hostNow.hValid then some (decodeReg s.hostNow.code (trunc s.cfg s.hostNow.hWdata)) else none

/-- The micro-operation this step's dispatch vector selects (R66, R67). -/
def State.microOp (s : State) : Except DecodeError Instr := decodeUop s.dispatch

/-- Makes predicate `e` take a value, if it has not: `NWORDS` is moved to K, or K to word 0 of a one-word array. -/
def State.forceEnd (s : State) (e : Bool) : State :=
  if s.endPred = e then s
  else if e then { s with nwords := s.k }
  else { s with k := 0, base := 0, nwords := 1 }

/-- Makes predicate `z` take a value, if it has not. -/
def State.forceZero (s : State) (z : Bool) : State :=
  if s.zeroPred = z then s else { s with bitset := if z then 0 else 1 }

/-- Makes predicate `f` take a value, if it has not: a checked buffer of no element is full, an empty buffer of one element
is not. -/
def State.forceFull (s : State) (f : Bool) : State :=
  if s.fullPred = f then s
  else if f then { s with chk := true, cap := 0 }
  else { s with cnt := 0, cap := 1 }

/-- Gives the word memory an element K (a zero word) if it has none: what R195 owes a U.FETCH. -/
def State.provideWord (s : State) : State :=
  match s.memRead s.k with
  | some _ => s
  | none => s.setWmem (Memory.write s.wmem s.k.toNat 0)

/-- Puts the scanner where the next step's dispatch vector is `dv` (log entry 12). A vector whose ST field is a code that ST
never takes (R64) changes nothing. -/
def State.presentUop (s : State) (dv : BitVec 7) : State :=
  match St.ofCode (dv.extractLsb' 4 3) with
  | none => s
  | some st =>
    let t := (((s.setSt st).forceEnd (dv.getLsbD 3)).forceZero (dv.getLsbD 2)).forceFull (dv.getLsbD 1)
    let t := { t with strat := dv.getLsbD 0 }
    let t := if st = .fetch && !t.endPred then t.provideWord else t
    t.setScript (HostIn.idle :: s.script)

/-- Puts a code where the next step finds it: a transaction on the pins, a command as the data of a WR.CMD on the pins, a
dispatch vector in the registers it is formed from. -/
def State.presentCode (s : State) (c : Code) : State :=
  match c with
  | .reg t d => s.setScript (HostIn.ofCode t d :: s.script)
  | .cmd d => s.setScript (HostIn.ofCode 9 d :: s.script)
  | .uop dv => s.presentUop dv

/-- Puts a word of the opcode table where the next step finds it; a word that is no code changes nothing. -/
def State.presentWord (s : State) (nbits w : Nat) : State :=
  match codeOfTableWord nbits w with
  | some c => s.presentCode c
  | none => s

end Sys2Proof.Machine
end

