-- ==== Sys2Proof/Machine/Cycle.lean ====
section
/-! DEFINITION. One rising edge of the clock (R9): reset before everything, else the host's access and the one
micro-operation that the dispatch vector of the step selects. -/

namespace Sys2Proof.Machine

/-- Goes on from a next state; a stop stays a stop. -/
def andThen (o : Host.Outcome State Fault Refusal) (f : State → Host.Outcome State Fault Refusal) :
    Host.Outcome State Fault Refusal :=
  match o with
  | .next t => f t
  | .fault r => .fault r
  | .refused r => .refused r

/-- The host's part of a step (R120): its access, if it presents one. -/
def hostPhase (s : State) : Host.Outcome State Fault Refusal :=
  match s.hostInstr with
  | some i => exec i s.tick
  | none => .next s.tick

/-- One step (R9). The micro-operation is selected from the registers before the step. While busy the host's access changes
no register the scanner reads (R121, R131), and while not busy the scanner holds (R106), so running the two in this order is
the simultaneous update of R34. DEDUCED (log entry 2), safe. -/
def cycle (s : State) : Host.Outcome State Fault Refusal :=
  if s.hostNow.rst then .next s.tick.applyReset
  else match s.microOp with
    | .ok u => andThen (hostPhase s) (exec u)
    | .error (.noDispatchRow dv) => .refused (.noDispatchRow dv)

end Sys2Proof.Machine
end

