-- ==== Sys2Proof/Machine/Contract.lean ====
section
/-! DEFINITION. The terms of the decode contract: the functions of R155, the launch premises of R140, and a run of several
steps. Notation of the spec; nothing in the block computes them. -/

namespace Sys2Proof.Machine

/-- `bits(w)` (R155): the places of the set bits of a word, ascending. -/
def bitList (w : Word) : List Nat := (List.range 64).filter (fun b => w.getLsbD b)

/-- The positions of the set bits of words k, k+1, ... of an array. -/
def positionsFrom : Nat → List Word → List Nat
  | _, [] => []
  | k, w :: ws => (bitList w).map (fun b => 64 * k + b) ++ positionsFrom (k + 1) ws

/-- `positions(A, N)` (R155), N being the length of A. -/
def positions (A : List Word) : List Nat := positionsFrom 0 A

/-- `card(A, N)` (R155): the sum of the population counts. -/
def card (A : List Word) : Nat := (A.map (fun w => (popcount64 w).toNat)).sum

/-- Setting, in a word, the bits that a list of positions names for word k (R152, round trip). -/
def encodeWord (ps : List Nat) (k : Nat) : Word :=
  (ps.filter (fun p => p / 64 == k)).foldl (fun w p => w ||| (1#64 <<< (p % 64))) 0

/-- Re-encoding a position list into an array of n words (R152, round trip). -/
def reencode (ps : List Nat) (n : Nat) : List Word := (List.range n).map (encodeWord ps)

/-- The word memory holds the array A: element k is `A[k]` for every index of A (R140 b, R195). -/
def State.holdsArray (s : State) (A : List Word) : Prop :=
  ∀ i, i < A.length → Memory.read s.wmem i = A[i]?

/-- The pins present a START command: a write to CMD whose data has `01` in bits 1:0 (R61, R126). -/
def HostIn.isStart (p : HostIn) : Bool :=
  p.hValid && p.hWe && decide (p.hAddr = 1) && decide (cmdCode p.hWdata = 1)

/-- The pins present a CLEAR command: a write to CMD whose data has `10` in bits 1:0 (R61, R126). -/
def HostIn.isClear (p : HostIn) : Bool :=
  p.hValid && p.hWe && decide (p.hAddr = 1) && decide (cmdCode p.hWdata = 2)

/-- The pins present a read (R60). -/
def HostIn.isRead (p : HostIn) : Bool := p.hValid && !p.hWe

/-- The pins present a write (R60). -/
def HostIn.isWrite (p : HostIn) : Bool := p.hValid && p.hWe

/-- `rst` stays 0 in the next n steps (R140 e). -/
def State.noResetFor (s : State) (n : Nat) : Prop := ∀ p, p ∈ s.script.take n → p.rst = false

/-- The launch premises of R140 (a), (b) at a START step: the block is not busy, the word memory holds the array A, whose
length is NWORDS and at most NMAX, and the pins present START with `rst` at 0. -/
structure State.Launch (s : State) (A : List Word) : Prop where
  paramsLegal : s.cfg.wf
  notBusy : s.busy = false
  lengthIs : s.nwords.toNat = A.length
  lengthLegal : s.nwords.toNat ≤ s.cfg.nmax
  arrayHeld : s.holdsArray A
  startNow : s.hostNow.isStart = true
  noReset : s.hostNow.rst = false

/-- n steps of the machine. -/
def runSteps (n : Nat) (s : State) : Host.Outcome State Fault Refusal := Host.Core.run Sys2Proof.core n s

/-- What a running decode of A has reached (R146, R148), and what it leaves in the FAULT state of a CapacityError: which
bits of word K are left, how many positions are written, and that they are the first positions of A. `om` is the output
memory at START. -/
structure State.Progress (A : List Word) (om : Memory) (s : State) : Prop where
  lengthIs : s.nwords.toNat = A.length
  arrayHeld : s.holdsArray A
  betweenWords : s.st = .fetch ∨ s.st = .done → s.cnt.toNat = card (A.take s.k.toNat)
  insideWord : s.st = .scan ∨ s.st = .fault →
    ∃ w m, A[s.k.toNat]? = some w ∧ bitList s.bitset = (bitList w).drop m ∧ m ≤ (bitList w).length ∧
      s.cnt.toNat = card (A.take s.k.toNat) + m
  written : ∀ i, i < s.cnt.toNat → Memory.read s.omem i = ((positions A)[i]?).map (BitVec.ofNat 64)
  untouched : ∀ i, s.cnt.toNat ≤ i → Memory.read s.omem i = Memory.read om i

end Sys2Proof.Machine
end

