-- ==== Sys2Proof/Machine/Ports.lean ====
section
/-! DEFINITION. The block's output lines in a step (R53, R171, R190), each a function of the registers and of `rst`. -/

namespace Sys2Proof.Machine

/-- `w_addr`: carries K in every step (R53). -/
def State.wAddr (s : State) : RegVal := s.k

/-- `o_we`: 1 exactly in a U.EMIT.TZC or U.EMIT.LSB step (R53); 0 in a reset step (R190). -/
def State.oWe (s : State) : Bool :=
  !s.hostNow.rst && decide (s.st = .scan) && !s.zeroPred && !s.fullPred

/-- `o_addr`: the index of the write, CNT, in an emit step (R53). R53 gives it no value in a step with `o_we = 0`; that it
carries CNT there too is the model's. DESIGN CHOICE (log entry 19), unsafe; no meaning reads it. -/
def State.oAddr (s : State) : RegVal := s.cnt

/-- `o_wdata`: the position, the wire `pos = pos_add(BASE, idx_mux(STRAT, BITSET))` of R16, in an emit step (R53). R53 gives
it no value in a step with `o_we = 0`; that it carries `pos` there too is the model's. DESIGN CHOICE (log entry 19), unsafe; no
meaning reads it. -/
def State.oWdata (s : State) : RegVal := posAdd s.cfg s.base (idxMux s.strat s.bitset)

/-- The level output `busy` (R171). -/
def State.busyLine (s : State) : Bool := s.busy

/-- The level output `done` (R171). -/
def State.doneLine (s : State) : Bool := s.doneBit

/-- The level output `err` (R171). -/
def State.errLine (s : State) : Bool := s.errBit

end Sys2Proof.Machine
end

