-- ==== Sys2Proof/Safety.lean ====
section
/-! DEFINITION. What counts as a good state and a safe step: the invariant of the reachable states (R15, R144, R145, R146,
R147, R148, R165) and the measure that falls in every busy step (R153). -/

namespace Sys2Proof.Machine

/-- A value of POSW bits: its container is 0 above them (R5). -/
abbrev State.fits (s : State) (v : RegVal) : Prop := v.toNat < 2 ^ s.cfg.posw.bits

/-- The invariant of the machine: it holds after reset and every step keeps it, whatever the host does. -/
structure State.Inv (s : State) : Prop where
  paramsLegal : s.cfg.wf
  kFits : s.fits s.k
  baseFits : s.fits s.base
  cntFits : s.fits s.cnt
  nwordsFits : s.fits s.nwords
  capFits : s.fits s.cap
  hRdataFits : s.fits s.hRdata
  wmemCanonical : Memory.wf s.wmem
  omemCanonical : Memory.wf s.omem
  omemFits : ∀ e, e ∈ s.omem → e.1 < 2 ^ s.cfg.posw.bits ∧ s.fits e.2
  /-- `ERRCODE != 0` exactly when `ST = FAULT` (R15). -/
  errcodeIff : s.errcode ≠ 0 ↔ s.st = .fault
  /-- Code 3 is never produced (R15, R65). -/
  errcodeLegal : s.errcode ≠ 3
  /-- `BASE = 64 * K` (R144). -/
  baseIs : s.base.toNat = 64 * s.k.toNat
  /-- `NWORDS <= NMAX` while busy (R145). -/
  busyLength : s.busy = true → s.nwords.toNat ≤ s.cfg.nmax
  /-- In FETCH, `K <= NWORDS` (R145). -/
  fetchRange : s.st = .fetch → s.k.toNat ≤ s.nwords.toNat
  /-- In SCAN, `K < NWORDS` (R145). -/
  scanRange : s.st = .scan → s.k.toNat < s.nwords.toNat
  /-- `K <= NMAX` (R147). -/
  kMax : s.k.toNat ≤ s.cfg.nmax
  /-- BITSET is 0 in FETCH and DONE (R146), and in IDLE. -/
  bitsetZero : s.st = .idle ∨ s.st = .done ∨ s.st = .fetch → s.bitset = 0
  /-- `CNT <= 64*K` in FETCH and DONE (R147), and in IDLE. -/
  cntBetween : s.st = .idle ∨ s.st = .done ∨ s.st = .fetch → s.cnt.toNat ≤ 64 * s.k.toNat
  /-- `CNT <= 64*K + (64 - popcount64(BITSET))` in SCAN (R147). -/
  cntInside : s.st = .scan → s.cnt.toNat + (popcount64 s.bitset).toNat ≤ 64 * s.k.toNat + 64
  /-- `CNT <= 64*NMAX` (R14, R147). -/
  cntMax : s.cnt.toNat ≤ 64 * s.cfg.nmax
  /-- With checking on, `CNT <= CAP` while busy (R148). -/
  checked : s.busy = true → s.chk = true → s.cnt.toNat ≤ s.cap.toNat
  /-- IDLE follows a reset or a CLEAR only: the scanner registers are 0 (R10, R27). -/
  idleZero : s.st = .idle → s.k = 0 ∧ s.cnt = 0
  /-- After a CapacityError a position was due (R165). -/
  capacityDue : s.errcode = 1 → s.bitset ≠ 0
  /-- After an InvalidInputError the scanner registers are 0 (R165). -/
  invalidZero : s.errcode = 2 → s.k = 0 ∧ s.bitset = 0 ∧ s.cnt = 0

/-- The next step is safe: it stops neither in a fault nor in a refusal. -/
def State.safeStep (s : State) : Prop := ∃ t, step s = .next t

/-- What keeps a step from a model fault: word K is there when it is fetched (R195), and with checking off the buffer has
room for the next position (R206). -/
def State.hostKeepsDuties (s : State) : Prop :=
  (s.st = .fetch → s.k.toNat < s.nwords.toNat → (s.memRead s.k).isSome = true) ∧
  (s.st = .scan → s.bitset ≠ 0 → s.chk = false → s.cnt.toNat < s.cap.toNat)

/-- The measure of R153: words left, then set bits left, then whether the word is still to be fetched, as one number. A word
left weighs more than all that can happen inside one word. -/
def State.workLeft (s : State) : Nat :=
  match s.st with
  | .fetch => 67 * (s.nwords.toNat - s.k.toNat) + 1
  | .scan => 67 * (s.nwords.toNat - s.k.toNat - 1) + (popcount64 s.bitset).toNat + 2
  | _ => 0

/-- The state with CTRL.STRAT and the last read value put aside: what two decodes that differ in the strategy alone share
(R143). A read of CTRL shows the strategy, so the read value goes too. -/
def State.exceptStrat (s : State) : State := { s with strat := false, hRdata := 0 }

/-- The same of an outcome. -/
def outcomeExceptStrat (o : Host.Outcome State Fault Refusal) : Host.Outcome State Fault Refusal :=
  andThen o (fun t => .next t.exceptStrat)

/-- The state with the output memory put aside: what the block can know of it (R25, R41). -/
def State.exceptOmem (s : State) : State := { s with omem := [] }

/-- The same of an outcome. -/
def outcomeExceptOmem (o : Host.Outcome State Fault Refusal) : Host.Outcome State Fault Refusal :=
  andThen o (fun t => .next t.exceptOmem)

end Sys2Proof.Machine
end

