-- ==== Sys2Proof/Certificates/Slice0/Obligations.lean ====
section
/-! DEFINITION. The statements for the provers. Each docstring names the rule of spec/ it formalises. -/

open Sys2Proof Sys2Proof.Machine

/-! ### Encodings -/

/-- Decoding and encoding agree in both directions. Every instruction's code decodes to it. Every transaction code decodes,
and encodes back to the same T, with the data of a write kept whole; every command word decodes, and encodes back to its low
two bits; a dispatch vector that decodes lies in the row of the instruction it gives. That the data of a read and the upper
bits of a command word are encoded back as 0 is the model's choice, not R60's or R61's: the encoder writes the bits that the
block ignores as 0 (DESIGN CHOICE, log entry 11). -/
def Obligations.DecodeEncodeAgree : Prop :=
  (∀ i : Instr, decode (encode i) = .ok i) ∧
  (∀ (t : BitVec 4) (d : RegVal), ∃ i, decode (.reg t d) = .ok i ∧ encode i = .reg t (if t.getLsbD 3 then d else 0)) ∧
  (∀ d : RegVal, ∃ i, decode (.cmd d) = .ok i ∧ encode i = .cmd (d &&& 3)) ∧
  (∀ (dv : BitVec 7) (i : Instr), decode (.uop dv) = .ok i →
    ∃ r : OpRow, r = opcodeRow i ∧ r.format = .uop ∧ dv.setWidth 8 &&& r.mask = r.pattern)

/-- R60's table: the nine transactions. -/
def Obligations.RegTransactionTable : Prop :=
  ∀ (d : RegVal) (a : BitVec 3),
    decode (.reg (0#1 ++ a) d) = .ok (.rd a) ∧
    decode (.reg 0b1000 d) = .ok (.wrCtrl d) ∧ decode (.reg 0b1001 d) = .ok (.wrCmd d) ∧
    decode (.reg 0b1010 d) = .ok (.wrStatus d) ∧ decode (.reg 0b1011 d) = .ok (.wrNwords d) ∧
    decode (.reg 0b1100 d) = .ok (.wrCap d) ∧ decode (.reg 0b1101 d) = .ok (.wrCard d) ∧
    decode (.reg 0b1110 d) = .ok (.wrErrcode d) ∧ decode (.reg 0b1111 d) = .ok (.wrRsv7 d)

/-- R61: the command word is decoded on bits 1:0 only. -/
def Obligations.CommandTable : Prop :=
  ∀ d : RegVal,
    (d.extractLsb' 0 2 = 0b00 → decode (.cmd d) = .ok .nop) ∧
    (d.extractLsb' 0 2 = 0b01 → decode (.cmd d) = .ok .start) ∧
    (d.extractLsb' 0 2 = 0b10 → decode (.cmd d) = .ok .clear) ∧
    (d.extractLsb' 0 2 = 0b11 → decode (.cmd d) = .ok .cmdRsv3)

/-- R67: each row is selected exactly by the vectors with `(D & mask) = match`; so no vector selects two rows; and every
vector whose ST field is one of the five state codes selects one. -/
def Obligations.MicroOpSelectionTable : Prop :=
  (∀ dv : BitVec 7,
    (decodeUop dv = .ok .uFetch ↔ dv &&& 0x78 = 0x40) ∧ (decodeUop dv = .ok .uFinish ↔ dv &&& 0x78 = 0x48) ∧
    (decodeUop dv = .ok .uSkip ↔ dv &&& 0x74 = 0x54) ∧ (decodeUop dv = .ok .uEmitTzc ↔ dv &&& 0x77 = 0x50) ∧
    (decodeUop dv = .ok .uEmitLsb ↔ dv &&& 0x77 = 0x51) ∧ (decodeUop dv = .ok .uTrapCap ↔ dv &&& 0x76 = 0x52) ∧
    (decodeUop dv = .ok .uHold ↔ dv &&& 0x40 = 0x00)) ∧
  (∀ (st : St) (x : BitVec 4), ∃ u, u ∈ uops ∧ decodeUop (st.code ++ x) = .ok u)

/-- R107: in every state exactly one row of R67 matches the dispatch vector, and the step has that micro-operation. -/
def Obligations.ExactlyOneMicroOp : Prop :=
  ∀ s : State, ∃ u, uops.filter (fun v => (Code.uop s.dispatch).inRow (opcodeRow v)) = [u] ∧ s.microOp = .ok u

/-- R66 with R18: the places of ST and of the four predicates in the dispatch vector, and what each predicate is. -/
def Obligations.DispatchVectorFields : Prop :=
  ∀ s : State,
    s.dispatch.extractLsb' 4 3 = s.st.code ∧
    (s.dispatch.getLsbD 3 = true ↔ s.nwords.toNat ≤ s.k.toNat) ∧
    (s.dispatch.getLsbD 2 = true ↔ s.bitset = 0) ∧
    (s.dispatch.getLsbD 1 = true ↔ s.chk = true ∧ s.cap.toNat ≤ s.cnt.toNat) ∧
    s.dispatch.getLsbD 0 = s.strat

/-- R63 with the codes of R64: STATUS is one of five values, and its BUSY bit is bit 2 of the state code. -/
def Obligations.StatusValues : Prop :=
  ∀ s : State,
    (s.st = .idle → s.statusWord = 0x00) ∧ (s.st = .done → s.statusWord = 0x11) ∧ (s.st = .fault → s.statusWord = 0x22) ∧
    (s.st = .fetch → s.statusWord = 0x0C) ∧ (s.st = .scan → s.statusWord = 0x0D) ∧
    s.statusWord.extractLsb' 0 3 = s.st.code ∧ s.statusWord.getLsbD 3 = s.st.code.getLsbD 2

/-- A few words: five written out from R60, R61 and R67; and a vector with an ST code that never occurs (R64, R69), to which
the spec gives no behaviour. That the decoder refuses this one, by name, is the model's (DEDUCED, log entry 18). -/
def Obligations.DecodedWords : Prop :=
  decode (.reg 0b0101 0) = .ok (.rd 5) ∧ decode (.reg 0b1011 2) = .ok (.wrNwords 2) ∧
  decode (.cmd 0b101) = .ok .start ∧ decode (.uop 0b1000101) = .ok .uFetch ∧ decode (.uop 0b1010110) = .ok .uSkip ∧
  decode (.uop 0b1101000) = .error (.noDispatchRow 0b1101000)

/-! ### Datapath -/

/-- R80 and R85: for a word with a set bit, `ctz64` is the least n with `x[n] = 1`, for 0 it is 64; `popcount64` is the sum
of the 64 bits. -/
def Obligations.CountUnits : Prop :=
  (∀ x : Word, x ≠ 0 → (ctz64 x).toNat ≤ 63 ∧ x.getLsbD (ctz64 x).toNat = true ∧
    ∀ n, n < (ctz64 x).toNat → x.getLsbD n = false) ∧
  ctz64 0 = 64 ∧
  ∀ x : Word, (popcount64 x).toNat = ((List.range 64).map (fun i => (x.getLsbD i).toNat)).sum

/-- R81: the priority encoder, lowest-numbered set bit first. -/
def Obligations.PriorityEncoder : Prop :=
  ∀ x : Word, ((penc x).1 = true ↔ x ≠ 0) ∧ (penc x).2 = (ctz64 x).extractLsb' 0 6 ∧
    (x ≠ 0 → x.getLsbD (penc x).2.toNat = true ∧ ∀ n, n < (penc x).2.toNat → x.getLsbD n = false) ∧
    penc 0 = (false, 0)

/-- R82 and R84: `onehot64(n) = 2^n`, and `below64` subtracts 1 modulo `2^64`, which leaves exactly the bits below n of
`2^n`. -/
def Obligations.OneHotAndBelow : Prop :=
  (∀ n : BitIdx, (onehot64 n).toNat = 2 ^ n.toNat) ∧
  (∀ t : Word, (below64 t).toNat = (t.toNat + 2 ^ 64 - 1) % 2 ^ 64) ∧
  (∀ (n : BitIdx) (j : Nat), (below64 (onehot64 n)).getLsbD j = decide (j < n.toNat)) ∧
  below64 0 = 0xFFFFFFFFFFFFFFFF

/-- R83: `iso64(x) = x & neg64(x)` with `neg64(x) = (2^64 - x) mod 2^64`, which is `2^ctz64(x)` for a word with a set bit. -/
def Obligations.IsolatesLowestBit : Prop :=
  (∀ x : Word, (neg64 x).toNat = (2 ^ 64 - x.toNat) % 2 ^ 64 ∧ iso64 x = x &&& neg64 x) ∧
  (∀ x : Word, x ≠ 0 → (iso64 x).toNat = 2 ^ (ctz64 x).toNat) ∧
  iso64 0 = 0 ∧ iso64 0x8000000000000000 = 0x8000000000000000 ∧ iso64 0xFFFFFFFFFFFFFFFF = 1

/-- R86: the population count of the bits below the isolated bit is its index. -/
def Obligations.IndexIdentity : Prop :=
  ∀ x : Word, x ≠ 0 → popcount64 (below64 (iso64 x)) = ctz64 x

/-- R87: the two clearing steps, and `x & (x - 1)`, give the same word: x with its lowest set bit cleared and every other bit
unchanged. -/
def Obligations.ClearIdentity : Prop :=
  ∀ x : Word, x ≠ 0 →
    x ^^^ onehot64 ((ctz64 x).extractLsb' 0 6) = x ^^^ iso64 x ∧ x ^^^ iso64 x = x &&& below64 x ∧
    ∀ j, (x ^^^ iso64 x).getLsbD j = (x.getLsbD j && decide (j ≠ (ctz64 x).toNat))

/-- R88 and R89: the output mux. Both arms of both halves agree on every word with a set bit; on 0 the index arms give 0 and
the clear arms give 1 and 0. -/
def Obligations.OutputMux : Prop :=
  (∀ x : Word, idxMux false x = (ctz64 x).extractLsb' 0 6 ∧ idxMux true x = (popcount64 (below64 (iso64 x))).extractLsb' 0 6 ∧
    clrMux false x = onehot64 ((ctz64 x).extractLsb' 0 6) ∧ clrMux true x = iso64 x) ∧
  (∀ x : Word, x ≠ 0 → idxMux false x = idxMux true x ∧ (idxMux true x).toNat = (ctz64 x).toNat ∧
    clrMux false x = clrMux true x) ∧
  idxMux false 0 = 0 ∧ idxMux true 0 = 0 ∧ clrMux false 0 = 1 ∧ clrMux true 0 = 0

/-- R90: the position adder is addition modulo `2^POSW`; in every good state it does not wrap, stays below `2^(POSW-1)`, and
is the concatenation `{K, idx}`. -/
def Obligations.PositionAdder : Prop :=
  (∀ (c : Config) (base : RegVal) (idx : BitIdx),
    (posAdd c base idx).toNat = (base.toNat + idx.toNat) % 2 ^ c.posw.bits) ∧
  (∀ (s : State) (idx : BitIdx), s.Inv →
    (posAdd s.cfg s.base idx).toNat = s.base.toNat + idx.toNat ∧
    (posAdd s.cfg s.base idx).toNat < 2 ^ (s.cfg.posw.bits - 1) ∧
    posAdd s.cfg s.base idx = s.k.extractLsb' 0 58 ++ idx)

/-! ### Host accesses and commands: each is also its instruction's completion statement -/

/-- R121: the eight values a read returns, in every state, and nothing else changed; in a step the value is that of the
registers before the step. A step without a read drives 0 (R60). -/
def Obligations.RegisterReads : Prop :=
  (∀ s : State,
    exec (.rd 0) s = .next { s with hRdata := (if s.chk then 2 else 0) + (if s.strat then 1 else 0) } ∧
    exec (.rd 1) s = .next { s with hRdata := 0 } ∧
    exec (.rd 2) s = .next { s with hRdata :=
      (if s.st = .fault then 32 else 0) + (if s.st = .done then 16 else 0) +
      (if s.st = .fetch ∨ s.st = .scan then 8 else 0) + s.st.code.setWidth 64 } ∧
    exec (.rd 3) s = .next { s with hRdata := s.nwords } ∧
    exec (.rd 4) s = .next { s with hRdata := s.cap } ∧
    exec (.rd 5) s = .next { s with hRdata := s.cnt } ∧
    exec (.rd 6) s = .next { s with hRdata := s.errcode.setWidth 64 } ∧
    exec (.rd 7) s = .next { s with hRdata := 0 }) ∧
  (∀ s t m : State, s.hostNow.rst = false → s.hostNow.isRead = true → step s = .next t →
    exec (.rd s.hostNow.hAddr) s = .next m → t.hRdata = m.hRdata) ∧
  (∀ s t : State, (s.hostNow.isRead = false ∨ s.hostNow.rst = true) → step s = .next t → t.hRdata = 0)

/-- R122: WR.CTRL takes `d[0]` and `d[1]` while the block is not busy, whatever the other bits. While busy: R131. -/
def Obligations.WriteCtrl : Prop :=
  ∀ (s : State) (d : RegVal), exec (.wrCtrl d) s =
    .next (if s.st = .fetch ∨ s.st = .scan then s else { s with strat := d.getLsbD 0, chk := d.getLsbD 1 })

/-- R123 and R124: WR.NWORDS and WR.CAP store all POSW bits of the data while the block is not busy. -/
def Obligations.WriteNwordsAndCap : Prop :=
  ∀ (s : State) (d : RegVal), d.toNat < 2 ^ s.cfg.posw.bits →
    exec (.wrNwords d) s = .next (if s.st = .fetch ∨ s.st = .scan then s else { s with nwords := d }) ∧
    exec (.wrCap d) s = .next (if s.st = .fetch ∨ s.st = .scan then s else { s with cap := d })

/-- R125: writes to STATUS, CARD, ERRCODE and register 7 change nothing, in every state. -/
def Obligations.ReadOnlyWritesIgnored : Prop :=
  ∀ (s : State) (d : RegVal), exec (.wrStatus d) s = .next s ∧ exec (.wrCard d) s = .next s ∧
    exec (.wrErrcode d) s = .next s ∧ exec (.wrRsv7 d) s = .next s

/-- R126: WR.CMD acts as the command `d[1:0]` in the step in which it is written, and nothing is stored. The next state is
written out for NOP, CLEAR, the reserved command and START with a legal length; START with a length above NMAX is here only as
`exec .start`, which StartCommand and WriteCmdCompletes write out. -/
def Obligations.WriteCmdIssues : Prop :=
  ∀ (s : State) (d : RegVal), ¬(s.st = .fetch ∨ s.st = .scan) →
    (d.extractLsb' 0 2 = 0b00 → exec (.wrCmd d) s = exec .nop s ∧ exec (.wrCmd d) s = .next s) ∧
    (d.extractLsb' 0 2 = 0b01 → exec (.wrCmd d) s = exec .start s ∧ (s.nwords.toNat ≤ s.cfg.nmax →
      exec (.wrCmd d) s = .next { s with errcode := 0, k := 0, base := 0, bitset := 0, cnt := 0, st := .fetch })) ∧
    (d.extractLsb' 0 2 = 0b10 → exec (.wrCmd d) s = exec .clear s ∧
      exec (.wrCmd d) s = .next { s with errcode := 0, k := 0, base := 0, bitset := 0, cnt := 0, st := .idle }) ∧
    (d.extractLsb' 0 2 = 0b11 → exec (.wrCmd d) s = exec .cmdRsv3 s ∧ exec (.wrCmd d) s = .next s)

/-- WR.CMD completes in every state and for every data (R126, R131): ignored while busy; else START goes to FETCH, or with a
length above NMAX raises InvalidInputError, with the scanner registers 0 either way (R128); CLEAR goes to IDLE (R129); NOP and
the reserved command change nothing (R127, R130). -/
def Obligations.WriteCmdCompletes : Prop :=
  ∀ (s : State) (d : RegVal), exec (.wrCmd d) s = .next (
    if s.st = .fetch ∨ s.st = .scan then s
    else if d.extractLsb' 0 2 = 0b01 then
      if s.cfg.nmax < s.nwords.toNat then { s with errcode := 2, k := 0, base := 0, bitset := 0, cnt := 0, st := .fault }
      else { s with errcode := 0, k := 0, base := 0, bitset := 0, cnt := 0, st := .fetch }
    else if d.extractLsb' 0 2 = 0b10 then { s with errcode := 0, k := 0, base := 0, bitset := 0, cnt := 0, st := .idle }
    else s)

/-- R127 and R130: NOP and the reserved command change nothing. -/
def Obligations.NopAndReservedCommand : Prop :=
  ∀ s : State, exec .nop s = .next s ∧ exec .cmdRsv3 s = .next s

/-- R128: START of a block that is not busy: with a legal length a decode begins, with a length above NMAX
InvalidInputError is raised; both zero the scanner registers. -/
def Obligations.StartCommand : Prop :=
  ∀ s : State, ¬(s.st = .fetch ∨ s.st = .scan) →
    (s.nwords.toNat ≤ s.cfg.nmax →
      exec .start s = .next { s with errcode := 0, k := 0, base := 0, bitset := 0, cnt := 0, st := .fetch }) ∧
    (s.cfg.nmax < s.nwords.toNat →
      exec .start s = .next { s with errcode := 2, k := 0, base := 0, bitset := 0, cnt := 0, st := .fault })

/-- R129: CLEAR of a block that is not busy: to IDLE, with ERRCODE and the scanner registers 0; CTRL, NWORDS, CAP and both
memories keep their values, and STATUS becomes 0. -/
def Obligations.ClearCommand : Prop :=
  ∀ s : State, ¬(s.st = .fetch ∨ s.st = .scan) →
    ∃ t, exec .clear s = .next t ∧
      t = { s with st := .idle, errcode := 0, k := 0, base := 0, bitset := 0, cnt := 0 } ∧ t.statusWord = 0

/-- R131: while busy no write and no command acts; at the port, any write has the effect of no access at all, the
micro-operation of the step executes, and the configuration keeps its value. -/
def Obligations.BusyWritesIgnored : Prop :=
  (∀ (s : State) (d : RegVal), (s.st = .fetch ∨ s.st = .scan) →
    exec (.wrCtrl d) s = .next s ∧ exec (.wrCmd d) s = .next s ∧ exec (.wrNwords d) s = .next s ∧
    exec (.wrCap d) s = .next s ∧ exec .start s = .next s ∧ exec .clear s = .next s) ∧
  ∀ (s : State) (p : HostIn) (rest : List HostIn), (s.st = .fetch ∨ s.st = .scan) → p.rst = false → p.isWrite = true →
    s.script = p :: rest →
    step s = step { s with script := HostIn.idle :: rest } ∧
    ∀ t, step s = .next t → t.strat = s.strat ∧ t.chk = s.chk ∧ t.nwords = s.nwords ∧ t.cap = s.cap

/-! ### Micro-operations -/

/-- R100: `BITSET <- MemRead(K, 64) ; ST <- SCAN`, and nothing else, for every word the array has. -/
def Obligations.FetchLoadsWord : Prop :=
  ∀ (s : State) (w : Word), Memory.read s.wmem s.k.toNat = some w →
    exec .uFetch s = .next { s with bitset := w, st := .scan }

/-- R101: U.FINISH goes to DONE and keeps everything else, CNT among it. -/
def Obligations.FinishKeepsCount : Prop :=
  ∀ s : State, ∃ t, exec .uFinish s = .next t ∧ t = { s with st := .done } ∧ t.doneBit = true ∧ t.busy = false

/-- R102: U.SKIP adds 1 to K and 64 to BASE and goes to FETCH; in a good SCAN state neither addition wraps. It does not look
at `f`. -/
def Obligations.SkipMovesOn : Prop :=
  (∀ s : State, ∃ t, exec .uSkip s = .next t ∧
    t = { s with k := t.k, base := t.base, st := .fetch } ∧
    t.k.toNat = (s.k.toNat + 1) % 2 ^ s.cfg.posw.bits ∧ t.base.toNat = (s.base.toNat + 64) % 2 ^ s.cfg.posw.bits ∧
    (s.Inv → s.st = .scan → t.k.toNat = s.k.toNat + 1 ∧ t.base.toNat = s.base.toNat + 64)) ∧
  (∀ s : State, s.microOp = .ok .uSkip ↔ s.st = .scan ∧ s.bitset = 0)

/-- R103: U.EMIT.TZC below CAP writes `BASE + ctz64(BITSET)` at index CNT, clears that bit, counts, and stays in SCAN. The
element CNT reads as the position afterwards and every other element as before. -/
def Obligations.EmitByTrailingZeros : Prop :=
  ∀ s : State, s.st = .scan → s.bitset ≠ 0 → s.cnt.toNat < s.cap.toNat →
    ∃ t, exec .uEmitTzc s = .next t ∧
      t = { s with omem := t.omem, bitset := s.bitset ^^^ onehot64 ((ctz64 s.bitset).extractLsb' 0 6), cnt := t.cnt } ∧
      t.cnt.toNat = (s.cnt.toNat + 1) % 2 ^ s.cfg.posw.bits ∧
      Memory.read t.omem s.cnt.toNat = some (posAdd s.cfg s.base ((ctz64 s.bitset).extractLsb' 0 6)) ∧
      (∀ j, j ≠ s.cnt.toNat → Memory.read t.omem j = Memory.read s.omem j) ∧ (Memory.wf s.omem → Memory.wf t.omem)

/-- R104: U.EMIT.LSB below CAP writes `BASE + popcount64(t - 1)` with `t = iso64(BITSET)`, clears t, counts, and stays in
SCAN; it leaves exactly what U.EMIT.TZC would. -/
def Obligations.EmitByIsolation : Prop :=
  ∀ s : State, s.st = .scan → s.bitset ≠ 0 → s.cnt.toNat < s.cap.toNat →
    ∃ t, exec .uEmitLsb s = .next t ∧
      t = { s with omem := t.omem, bitset := s.bitset ^^^ iso64 s.bitset, cnt := t.cnt } ∧
      t.cnt.toNat = (s.cnt.toNat + 1) % 2 ^ s.cfg.posw.bits ∧
      Memory.read t.omem s.cnt.toNat =
        some (posAdd s.cfg s.base ((popcount64 (below64 (iso64 s.bitset))).extractLsb' 0 6)) ∧
      (∀ j, j ≠ s.cnt.toNat → Memory.read t.omem j = Memory.read s.omem j) ∧ (Memory.wf s.omem → Memory.wf t.omem) ∧
      exec .uEmitTzc s = .next t

/-- The two breaches of a host duty that stop the model: an emit whose index is not below CAP, the model-level fault that
R154 asks for; and a fetch of a word the word memory does not have (U15, R195; that the model takes this launch premise as a
fault is its own choice, log entry 6). -/
def Obligations.HostBreachStops : Prop :=
  (∀ s : State, s.cap.toNat ≤ s.cnt.toNat →
    exec .uEmitTzc s = .fault .unsafeOverflow ∧ exec .uEmitLsb s = .fault .unsafeOverflow) ∧
  (∀ s : State, Memory.read s.wmem s.k.toNat = none → exec .uFetch s = .fault .wordArrayTooShort)

/-- R105: U.TRAP.CAP raises CapacityError and keeps every other register; it is the micro-operation of a step exactly in SCAN
with a bit due, checking on and `CNT >= CAP`. -/
def Obligations.TrapOnFullBuffer : Prop :=
  (∀ s : State, exec .uTrapCap s = .next { s with errcode := 1, st := .fault }) ∧
  (∀ s : State, s.microOp = .ok .uTrapCap ↔
    s.st = .scan ∧ s.bitset ≠ 0 ∧ s.chk = true ∧ s.cap.toNat ≤ s.cnt.toNat)

/-- R106: U.HOLD changes nothing, and is the micro-operation exactly in IDLE, DONE and FAULT. -/
def Obligations.HoldDoesNothing : Prop :=
  (∀ s : State, exec .uHold s = .next s) ∧
  (∀ s : State, s.microOp = .ok .uHold ↔ s.st = .idle ∨ s.st = .done ∨ s.st = .fault)

/-- R36 and R164: raising an error writes ERRCODE and ST and nothing else, with the codes of R65. -/
def Obligations.RaiseWritesTwoRegisters : Prop :=
  ∀ s : State, s.raise .capacityError = { s with errcode := 1, st := .fault } ∧
    s.raise .invalidInputError = { s with errcode := 2, st := .fault } ∧ (∀ e, (s.raise e).errBit = true)

/-- What each instruction does to the memories (R40, R41, R48): the word memory is never written; the output memory reads as
before at every element but, for the two emits, element CNT. -/
def Obligations.MemoryFrame : Prop :=
  ∀ (i : Instr) (s t : State), exec i s = .next t →
    t.wmem = s.wmem ∧
    (i ≠ .uEmitTzc → i ≠ .uEmitLsb → ∀ a, Memory.read t.omem a = Memory.read s.omem a) ∧
    (∀ a, a ≠ s.cnt.toNat → Memory.read t.omem a = Memory.read s.omem a)

/-! ### The step -/

/-- A step runs the decoded instructions (R9, R120): what the dispatch vector decodes to, after what the transaction on the
pins decodes to; while the block is not busy the second is the whole step. `h_rdata` starts at 0 (R60). Two things here are
the model's, not R9's or R120's: that a step is the access's `exec` and then the micro-operation's, which is R34's simultaneous
update (DEDUCED, log entry 2); and that the pins are the head of `script` and are consumed (DESIGN CHOICE, log entry 3). -/
def Obligations.StepRunsDecoded : Prop :=
  ∀ (s : State) (u : Instr), s.hostNow.rst = false → decode (.uop s.dispatch) = .ok u →
    (s.hostNow.hValid = false → step s = exec u { s with script := s.script.tail, hRdata := 0 }) ∧
    (∀ i, s.hostNow.hValid = true → decode (.reg s.hostNow.code (trunc s.cfg s.hostNow.hWdata)) = .ok i →
      i.wf s.cfg = true ∧
      step s = andThen (exec i { s with script := s.script.tail, hRdata := 0 }) (exec u) ∧
      (s.busy = false → step s = exec i { s with script := s.script.tail, hRdata := 0 }))

/-- A step stops only where the host broke a duty (R163, R8): word K is missing when it is fetched, or, unchecked, a position
is due beyond CAP. Every other step answers a next state. -/
def Obligations.StepCompletes : Prop :=
  ∀ s : State, (s.hostNow.rst = true ∨ s.hostKeepsDuties) → ∃ t, step s = .next t

/-- R190: a reset step, whatever the state and whatever the host presents. (The pins of the step are consumed: `script` is the
model's own field, log entry 3.) -/
def Obligations.ResetStep : Prop :=
  ∀ s : State, s.hostNow.rst = true →
    s.oWe = false ∧
    step s = .next { s with st := .idle, errcode := 0, k := 0, base := 0, bitset := 0, cnt := 0, strat := false, chk := true,
                            nwords := 0, cap := 0, hRdata := 0, script := s.script.tail }

/-- R31: the registers after reset, in the reset state of every implementation and after a reset step in any state; the
memories keep their content. -/
def Obligations.ResetValues : Prop :=
  (∀ c : Config, ∀ r, r = State.resetOf c → r.st = .idle ∧ r.k = 0 ∧ r.base = 0 ∧ r.bitset = 0 ∧ r.cnt = 0 ∧ r.errcode = 0 ∧
    r.strat = false ∧ r.chk = true ∧ r.nwords = 0 ∧ r.cap = 0) ∧
  (∀ s : State, s.hostNow.rst = true → ∃ t, step s = .next t ∧ t.st = .idle ∧ t.k = 0 ∧ t.base = 0 ∧ t.bitset = 0 ∧
    t.cnt = 0 ∧ t.errcode = 0 ∧ t.strat = false ∧ t.chk = true ∧ t.nwords = 0 ∧ t.cap = 0 ∧
    t.wmem = s.wmem ∧ t.omem = s.omem)

/-- R108: all the ways ST changes. -/
def Obligations.StateGraph : Prop :=
  ∀ s t : State, step s = .next t →
    (s.hostNow.rst = true ∧ t.st = .idle) ∨
    (s.hostNow.rst = false ∧
      (((s.st = .idle ∨ s.st = .done ∨ s.st = .fault) ∧
          ((s.hostNow.isStart = true ∧ s.nwords.toNat ≤ s.cfg.nmax ∧ t.st = .fetch) ∨
           (s.hostNow.isStart = true ∧ s.cfg.nmax < s.nwords.toNat ∧ t.st = .fault) ∨
           (s.hostNow.isClear = true ∧ t.st = .idle) ∨
           (s.hostNow.isStart = false ∧ s.hostNow.isClear = false ∧ t.st = s.st))) ∨
       (s.st = .fetch ∧ s.k.toNat < s.nwords.toNat ∧ t.st = .scan) ∨
       (s.st = .fetch ∧ s.nwords.toNat ≤ s.k.toNat ∧ t.st = .done) ∨
       (s.st = .scan ∧ s.bitset ≠ 0 ∧ ¬(s.chk = true ∧ s.cap.toNat ≤ s.cnt.toNat) ∧ t.st = .scan) ∨
       (s.st = .scan ∧ s.bitset = 0 ∧ t.st = .fetch) ∨
       (s.st = .scan ∧ s.bitset ≠ 0 ∧ s.chk = true ∧ s.cap.toNat ≤ s.cnt.toNat ∧ t.st = .fault)))

/-- R168 and R170: the block leaves DONE or FAULT, or loses the result or the error code it holds there, only by reset, START
or CLEAR. -/
def Obligations.DoneAndFaultHold : Prop :=
  ∀ s t : State, (s.st = .done ∨ s.st = .fault) → s.hostNow.rst = false → s.hostNow.isStart = false →
    s.hostNow.isClear = false → step s = .next t →
    t.st = s.st ∧ t.errcode = s.errcode ∧ t.k = s.k ∧ t.base = s.base ∧ t.bitset = s.bitset ∧ t.cnt = s.cnt ∧
    t.omem = s.omem

/-- R53: the output write port. `o_we` is 1 exactly in an emit step; the memory takes `o_wdata` at `o_addr` in that step, and
does not change in any other. -/
def Obligations.OutputPort : Prop :=
  (∀ s : State, s.oWe = true ↔ s.hostNow.rst = false ∧ (s.microOp = .ok .uEmitTzc ∨ s.microOp = .ok .uEmitLsb)) ∧
  (∀ s t : State, step s = .next t →
    (s.oWe = true → t.omem = Memory.write s.omem s.oAddr.toNat s.oWdata) ∧ (s.oWe = false → t.omem = s.omem))

/-- No step changes an element of the output memory at index CAP or beyond (R105, R150, R154). -/
def Obligations.NoWriteBeyondCap : Prop :=
  ∀ s t : State, step s = .next t → ∀ i, s.cap.toNat ≤ i → Memory.read t.omem i = Memory.read s.omem i

/-- R151: START with a length above NMAX: one step, and the block is in FAULT with ERRCODE 2; neither memory is touched. (The
pins of the step are consumed and the kept `h_rdata` is 0: `script` and `hRdata` are the model's own fields, log entries 3 and
4.) -/
def Obligations.InvalidInputDecode : Prop :=
  ∀ s : State, s.busy = false → s.hostNow.rst = false → s.hostNow.isStart = true → s.cfg.nmax < s.nwords.toNat →
    step s = .next { s with st := .fault, errcode := 2, cnt := 0, k := 0, base := 0, bitset := 0, hRdata := 0,
                            script := s.script.tail }

/-! ### Invariants -/

/-- The invariant of the machine is kept by every step, from every state that has it (R15, R144 to R148, R165). -/
def Obligations.InvariantKept : Prop :=
  ∀ s t : State, s.Inv → step s = .next t → t.Inv

/-- The reset state of every implementation with legal parameters has the invariant. -/
def Obligations.InvariantAtReset : Prop :=
  State.reset.Inv ∧ ∀ c : Config, c.wf → (State.resetOf c).Inv

/-- R147: in every good state the sums a step forms do not wrap, and positions and counts are below `2^(POSW-1)`. -/
def Obligations.NoArithmeticWraps : Prop :=
  ∀ s : State, s.Inv →
    64 * s.cfg.nmax < 2 ^ (s.cfg.posw.bits - 1) ∧
    s.k.toNat ≤ s.cfg.nmax ∧ s.base.toNat = 64 * s.k.toNat ∧ s.base.toNat ≤ 64 * s.cfg.nmax ∧
    s.cnt.toNat ≤ 64 * s.cfg.nmax ∧
    (s.st = .fetch ∨ s.st = .done → s.cnt.toNat ≤ 64 * s.k.toNat) ∧
    (s.st = .scan → s.cnt.toNat ≤ 64 * s.k.toNat + (64 - (popcount64 s.bitset).toNat) ∧
      (addPosw s.cfg s.k 1).toNat = s.k.toNat + 1 ∧ (addPosw s.cfg s.base 64).toNat = s.base.toNat + 64) ∧
    (s.st = .scan → s.bitset ≠ 0 →
      (addPosw s.cfg s.cnt 1).toNat = s.cnt.toNat + 1 ∧
      (posAdd s.cfg s.base (idxMux s.strat s.bitset)).toNat = 64 * s.k.toNat + (ctz64 s.bitset).toNat ∧
      (posAdd s.cfg s.base (idxMux s.strat s.bitset)).toNat ≤ 64 * s.nwords.toNat - 1 ∧
      (posAdd s.cfg s.base (idxMux s.strat s.bitset)).toNat < 2 ^ (s.cfg.posw.bits - 1))

/-- R145: the index of a fetch is legal, predicate `e` means `K = NWORDS`, and a decode that reaches DONE has
`K = NWORDS`. -/
def Obligations.WordIndexRange : Prop :=
  ∀ s : State, s.Inv →
    (s.st = .fetch → s.k.toNat ≤ s.nwords.toNat ∧ (s.endPred = true ↔ s.k = s.nwords)) ∧
    (s.microOp = .ok .uFetch → s.k.toNat < s.nwords.toNat) ∧
    (s.st = .scan → s.k.toNat < s.nwords.toNat) ∧
    (s.busy = true → s.nwords.toNat ≤ s.cfg.nmax) ∧
    (∀ t, s.busy = true → step s = .next t → t.st = .done → t.k = t.nwords)

/-- START establishes what R146 and R148 say of a running decode. -/
def Obligations.ProgressFromStart : Prop :=
  ∀ (s t : State) (A : List Word), s.Launch A → step s = .next t → t.st = .fetch ∧ t.Progress A s.omem

/-- Every busy step keeps it: which bits of word K are left, how many positions are written, and that they are the first
positions of the array, with every later element untouched (R146, R148). -/
def Obligations.ProgressKept : Prop :=
  ∀ (s t : State) (A : List Word) (om : Memory), s.Inv → s.Progress A om → s.busy = true → s.hostNow.rst = false →
    step s = .next t → t.Progress A om

/-- R153: the measure falls in every busy step. -/
def Obligations.WorkFalls : Prop :=
  ∀ s t : State, s.Inv → s.busy = true → s.hostNow.rst = false → step s = .next t → t.workLeft < s.workLeft

/-! ### Whole decodes -/

/-- R149: a decode with room for every position ends, after exactly `2*N + c + 2` steps, in DONE with the positions of the
array in the output memory, the rest of it untouched, and the configuration kept; until then the block is busy. -/
def Obligations.SuccessfulDecode : Prop :=
  ∀ (s : State) (A : List Word), s.Launch A → card A ≤ s.cap.toNat → s.noResetFor (2 * A.length + card A + 2) →
    (∀ m, 1 ≤ m → m < 2 * A.length + card A + 2 → ∃ u, runSteps m s = .next u ∧ u.busy = true) ∧
    ∃ t, runSteps (2 * A.length + card A + 2) s = .next t ∧ t.st = .done ∧ t.cnt.toNat = card A ∧
      t.k.toNat = A.length ∧ t.base.toNat = 64 * A.length ∧ t.bitset = 0 ∧ t.errcode = 0 ∧
      (∀ i, i < card A → Memory.read t.omem i = ((positions A)[i]?).map (BitVec.ofNat 64)) ∧
      (∀ i, card A ≤ i → Memory.read t.omem i = Memory.read s.omem i) ∧
      t.wmem = s.wmem ∧ t.strat = s.strat ∧ t.chk = s.chk ∧ t.nwords = s.nwords ∧ t.cap = s.cap

/-- R150: a checked decode without room ends, after exactly `2*k* + CAP + 3` steps, in FAULT with CapacityError, the first CAP
positions written and nothing at or beyond CAP; `k*` is the word that holds position number CAP. -/
def Obligations.CapacityFaultDecode : Prop :=
  ∀ (s : State) (A : List Word) (p : Nat), s.Launch A → s.chk = true → (positions A)[s.cap.toNat]? = some p →
    s.noResetFor (2 * (p / 64) + s.cap.toNat + 3) →
    (∀ m, 1 ≤ m → m < 2 * (p / 64) + s.cap.toNat + 3 → ∃ u, runSteps m s = .next u ∧ u.busy = true) ∧
    ∃ t w, runSteps (2 * (p / 64) + s.cap.toNat + 3) s = .next t ∧ t.st = .fault ∧ t.errcode = 1 ∧ t.cnt = s.cap ∧
      t.k.toNat = p / 64 ∧ t.base.toNat = 64 * (p / 64) ∧ t.bitset ≠ 0 ∧ A[p / 64]? = some w ∧
      bitList t.bitset = (bitList w).drop (s.cap.toNat - card (A.take (p / 64))) ∧
      (∀ i, i < s.cap.toNat → Memory.read t.omem i = ((positions A)[i]?).map (BitVec.ofNat 64)) ∧
      (∀ i, s.cap.toNat ≤ i → Memory.read t.omem i = Memory.read s.omem i) ∧
      t.wmem = s.wmem ∧ t.strat = s.strat ∧ t.chk = s.chk ∧ t.nwords = s.nwords ∧ t.cap = s.cap

/-- R154: the unchecked decode without room stops in the model-level fault at the first write with index CAP, the CAP writes
before it made. -/
def Obligations.UncheckedOverflowDecode : Prop :=
  ∀ (s : State) (A : List Word) (p : Nat), s.Launch A → s.chk = false → (positions A)[s.cap.toNat]? = some p →
    s.noResetFor (2 * (p / 64) + s.cap.toNat + 3) →
    runSteps (2 * (p / 64) + s.cap.toNat + 3) s = .fault .unsafeOverflow ∧
    ∃ t, runSteps (2 * (p / 64) + s.cap.toNat + 2) s = .next t ∧
      ∀ i, i < s.cap.toNat → Memory.read t.omem i = ((positions A)[i]?).map (BitVec.ofNat 64)

/-- R153: every decode ends within `2*NWORDS + min(c, CAP') + 3` steps, START included, where CAP' is CAP with checking on.
An unchecked decode without room is left out: there the model stops (R154). -/
def Obligations.DecodeTerminates : Prop :=
  ∀ (s : State) (A : List Word), s.Launch A → (s.chk = true ∨ card A ≤ s.cap.toNat) →
    s.noResetFor (2 * A.length + card A + 3) →
    ∃ n t, 1 ≤ n ∧ n ≤ 2 * s.nwords.toNat + (if s.chk then min (card A) s.cap.toNat else card A) + 3 ∧
      runSteps n s = .next t ∧ (t.st = .done ∨ t.st = .fault)

/-- R155: what `bits`, `positions` and `card` are: the set bits of a word; the positions `64*k + b`, strictly increasing; and
as many of them as the population counts say. -/
def Obligations.PositionsOfArray : Prop :=
  (∀ (w : Word) (b : Nat), b ∈ bitList w ↔ b < 64 ∧ w.getLsbD b = true) ∧ (∀ w : Word, (bitList w).Pairwise (· < ·)) ∧
  ∀ A : List Word,
    (∀ p, p ∈ positions A ↔ ∃ w, A[p / 64]? = some w ∧ w.getLsbD (p % 64) = true) ∧
    (positions A).Pairwise (· < ·) ∧ (positions A).length = card A

/-- R152, round trip: setting the bits that the positions name in an all-zero array of the same length gives the array
back. -/
def Obligations.ReencodeGivesArray : Prop :=
  ∀ A : List Word, reencode (positions A) A.length = A

/-! ### What cannot be told apart -/

/-- R143: two runs that differ in CTRL.STRAT alone go through the same states, but for that bit and for the values that reads
return, under every host script, stops included. -/
def Obligations.StrategyIndependence : Prop :=
  ∀ (n : Nat) (s : State) (b : Bool),
    outcomeExceptStrat (runSteps n { s with strat := b }) = outcomeExceptStrat (runSteps n s)

/-- R25 and R41: the block never reads the output memory: two runs that differ in its content alone go through the same
states, but for that content. -/
def Obligations.OutputMemoryNeverRead : Prop :=
  ∀ (n : Nat) (s : State) (m : Memory),
    outcomeExceptOmem (runSteps n { s with omem := m }) = outcomeExceptOmem (runSteps n s)
end

