-- ==== Sys2Proof/Laws/Datapath.lean ====
section
/-! SUPPORT. What the counting loops and the cut to POSW bits give. -/

namespace Sys2Proof.Machine

theorem lowestSetFrom_le (fuel n : Nat) (x : Word) : lowestSetFrom fuel n x ≤ n + fuel := by
  induction fuel generalizing n with
  | zero => simp [lowestSetFrom]
  | succ f ih =>
    simp only [lowestSetFrom]
    split
    · omega
    · have := ih (n + 1); omega

theorem lowestSetFrom_ge (fuel n : Nat) (x : Word) : n ≤ lowestSetFrom fuel n x := by
  induction fuel generalizing n with
  | zero => simp [lowestSetFrom]
  | succ f ih =>
    simp only [lowestSetFrom]
    split
    · omega
    · have := ih (n + 1); omega

/-- Every bit the search passes is clear. -/
theorem lowestSetFrom_below {fuel n j : Nat} {x : Word} (hn : n ≤ j) (hj : j < lowestSetFrom fuel n x) :
    x.getLsbD j = false := by
  induction fuel generalizing n with
  | zero => simp [lowestSetFrom] at hj; omega
  | succ f ih =>
    simp only [lowestSetFrom] at hj
    split at hj
    · omega
    · next h =>
      rcases Nat.eq_or_lt_of_le hn with rfl | hlt
      · simpa using h
      · exact ih (n := n + 1) hlt hj

/-- The bit the search stops at is set, unless the fuel ran out. -/
theorem lowestSetFrom_set {fuel n : Nat} {x : Word} (h : lowestSetFrom fuel n x < n + fuel) :
    x.getLsbD (lowestSetFrom fuel n x) = true := by
  induction fuel generalizing n with
  | zero => simp [lowestSetFrom] at h
  | succ f ih =>
    simp only [lowestSetFrom] at h ⊢
    split
    · assumption
    · next hx =>
      rw [if_neg hx] at h
      exact ih (by omega)

theorem onesBelow_le (n : Nat) (x : Word) : onesBelow n x ≤ n := by
  induction n with
  | zero => simp [onesBelow]
  | succ n ih =>
    simp only [onesBelow]
    have : (x.getLsbD n).toNat ≤ 1 := Bool.toNat_le _
    omega

/-- The population count as a number: the u7 result holds it (R85). -/
theorem popcount64_toNat (x : Word) : (popcount64 x).toNat = onesBelow 64 x := by
  have := onesBelow_le 64 x
  simp only [popcount64, BitVec.toNat_ofNat]
  omega

/-- The trailing-zero count as a number: the u7 result holds it (R80). -/
theorem ctz64_toNat (x : Word) : (ctz64 x).toNat = lowestSetFrom 64 0 x := by
  have := lowestSetFrom_le 64 0 x
  simp only [ctz64, BitVec.toNat_ofNat]
  omega

/-- A value cut to POSW bits is its remainder modulo `2^POSW` (R92). -/
theorem trunc_toNat (c : Config) (v : RegVal) : (trunc c v).toNat = v.toNat % 2 ^ c.posw.bits := by
  unfold trunc
  cases c.posw
  · have h : (0xFFFFFFFF#64).toNat = 2 ^ 32 - 1 := rfl
    simp only [BitVec.toNat_and, h, Nat.and_two_pow_sub_one_eq_mod, Posw.bits]
  · exact (Nat.mod_eq_of_lt v.isLt).symm

theorem trunc_lt (c : Config) (v : RegVal) : (trunc c v).toNat < 2 ^ c.posw.bits := by
  rw [trunc_toNat]
  exact Nat.mod_lt _ (Nat.two_pow_pos _)

/-- A value of POSW bits is not changed by the cut. -/
theorem trunc_of_lt {c : Config} {v : RegVal} (h : v.toNat < 2 ^ c.posw.bits) : trunc c v = v := by
  apply BitVec.eq_of_toNat_eq
  rw [trunc_toNat, Nat.mod_eq_of_lt h]

/-- An addition that does not reach `2^POSW` is exact (R147). -/
theorem addPosw_toNat_of_lt {c : Config} {a b : RegVal} (h : a.toNat + b.toNat < 2 ^ c.posw.bits) :
    (addPosw c a b).toNat = a.toNat + b.toNat := by
  have h64 : (2 : Nat) ^ c.posw.bits ≤ 2 ^ 64 := Nat.pow_le_pow_right (by decide) (by cases c.posw <;> decide)
  rw [addPosw, trunc_toNat, BitVec.toNat_add, Nat.mod_eq_of_lt (by omega : a.toNat + b.toNat < 2 ^ 64), Nat.mod_eq_of_lt h]

end Sys2Proof.Machine
end

