-- ==== Sys2Proof/Laws/State.lean ====
section
/-! SUPPORT. One lemma per field of State per update: what the update writes, and that it leaves every other field alone. -/

namespace Sys2Proof.Machine

section
variable (s : State)


@[simp] theorem State.setSt_cfg (v : St) : (s.setSt v).cfg = s.cfg := rfl
@[simp] theorem State.setSt_st (v : St) : (s.setSt v).st = v := rfl
@[simp] theorem State.setSt_k (v : St) : (s.setSt v).k = s.k := rfl
@[simp] theorem State.setSt_base (v : St) : (s.setSt v).base = s.base := rfl
@[simp] theorem State.setSt_bitset (v : St) : (s.setSt v).bitset = s.bitset := rfl
@[simp] theorem State.setSt_cnt (v : St) : (s.setSt v).cnt = s.cnt := rfl
@[simp] theorem State.setSt_errcode (v : St) : (s.setSt v).errcode = s.errcode := rfl
@[simp] theorem State.setSt_strat (v : St) : (s.setSt v).strat = s.strat := rfl
@[simp] theorem State.setSt_chk (v : St) : (s.setSt v).chk = s.chk := rfl
@[simp] theorem State.setSt_nwords (v : St) : (s.setSt v).nwords = s.nwords := rfl
@[simp] theorem State.setSt_cap (v : St) : (s.setSt v).cap = s.cap := rfl
@[simp] theorem State.setSt_wmem (v : St) : (s.setSt v).wmem = s.wmem := rfl
@[simp] theorem State.setSt_omem (v : St) : (s.setSt v).omem = s.omem := rfl
@[simp] theorem State.setSt_script (v : St) : (s.setSt v).script = s.script := rfl
@[simp] theorem State.setSt_hRdata (v : St) : (s.setSt v).hRdata = s.hRdata := rfl

@[simp] theorem State.setScan_cfg (a b : RegVal) (w : Word) (c : RegVal) : (s.setScan a b w c).cfg = s.cfg := rfl
@[simp] theorem State.setScan_st (a b : RegVal) (w : Word) (c : RegVal) : (s.setScan a b w c).st = s.st := rfl
@[simp] theorem State.setScan_k (a b : RegVal) (w : Word) (c : RegVal) : (s.setScan a b w c).k = a := rfl
@[simp] theorem State.setScan_base (a b : RegVal) (w : Word) (c : RegVal) : (s.setScan a b w c).base = b := rfl
@[simp] theorem State.setScan_bitset (a b : RegVal) (w : Word) (c : RegVal) : (s.setScan a b w c).bitset = w := rfl
@[simp] theorem State.setScan_cnt (a b : RegVal) (w : Word) (c : RegVal) : (s.setScan a b w c).cnt = c := rfl
@[simp] theorem State.setScan_errcode (a b : RegVal) (w : Word) (c : RegVal) : (s.setScan a b w c).errcode = s.errcode := rfl
@[simp] theorem State.setScan_strat (a b : RegVal) (w : Word) (c : RegVal) : (s.setScan a b w c).strat = s.strat := rfl
@[simp] theorem State.setScan_chk (a b : RegVal) (w : Word) (c : RegVal) : (s.setScan a b w c).chk = s.chk := rfl
@[simp] theorem State.setScan_nwords (a b : RegVal) (w : Word) (c : RegVal) : (s.setScan a b w c).nwords = s.nwords := rfl
@[simp] theorem State.setScan_cap (a b : RegVal) (w : Word) (c : RegVal) : (s.setScan a b w c).cap = s.cap := rfl
@[simp] theorem State.setScan_wmem (a b : RegVal) (w : Word) (c : RegVal) : (s.setScan a b w c).wmem = s.wmem := rfl
@[simp] theorem State.setScan_omem (a b : RegVal) (w : Word) (c : RegVal) : (s.setScan a b w c).omem = s.omem := rfl
@[simp] theorem State.setScan_script (a b : RegVal) (w : Word) (c : RegVal) : (s.setScan a b w c).script = s.script := rfl
@[simp] theorem State.setScan_hRdata (a b : RegVal) (w : Word) (c : RegVal) : (s.setScan a b w c).hRdata = s.hRdata := rfl

@[simp] theorem State.setErrcode_cfg (v : BitVec 2) : (s.setErrcode v).cfg = s.cfg := rfl
@[simp] theorem State.setErrcode_st (v : BitVec 2) : (s.setErrcode v).st = s.st := rfl
@[simp] theorem State.setErrcode_k (v : BitVec 2) : (s.setErrcode v).k = s.k := rfl
@[simp] theorem State.setErrcode_base (v : BitVec 2) : (s.setErrcode v).base = s.base := rfl
@[simp] theorem State.setErrcode_bitset (v : BitVec 2) : (s.setErrcode v).bitset = s.bitset := rfl
@[simp] theorem State.setErrcode_cnt (v : BitVec 2) : (s.setErrcode v).cnt = s.cnt := rfl
@[simp] theorem State.setErrcode_errcode (v : BitVec 2) : (s.setErrcode v).errcode = v := rfl
@[simp] theorem State.setErrcode_strat (v : BitVec 2) : (s.setErrcode v).strat = s.strat := rfl
@[simp] theorem State.setErrcode_chk (v : BitVec 2) : (s.setErrcode v).chk = s.chk := rfl
@[simp] theorem State.setErrcode_nwords (v : BitVec 2) : (s.setErrcode v).nwords = s.nwords := rfl
@[simp] theorem State.setErrcode_cap (v : BitVec 2) : (s.setErrcode v).cap = s.cap := rfl
@[simp] theorem State.setErrcode_wmem (v : BitVec 2) : (s.setErrcode v).wmem = s.wmem := rfl
@[simp] theorem State.setErrcode_omem (v : BitVec 2) : (s.setErrcode v).omem = s.omem := rfl
@[simp] theorem State.setErrcode_script (v : BitVec 2) : (s.setErrcode v).script = s.script := rfl
@[simp] theorem State.setErrcode_hRdata (v : BitVec 2) : (s.setErrcode v).hRdata = s.hRdata := rfl

@[simp] theorem State.setCtrl_cfg (a b : Bool) : (s.setCtrl a b).cfg = s.cfg := rfl
@[simp] theorem State.setCtrl_st (a b : Bool) : (s.setCtrl a b).st = s.st := rfl
@[simp] theorem State.setCtrl_k (a b : Bool) : (s.setCtrl a b).k = s.k := rfl
@[simp] theorem State.setCtrl_base (a b : Bool) : (s.setCtrl a b).base = s.base := rfl
@[simp] theorem State.setCtrl_bitset (a b : Bool) : (s.setCtrl a b).bitset = s.bitset := rfl
@[simp] theorem State.setCtrl_cnt (a b : Bool) : (s.setCtrl a b).cnt = s.cnt := rfl
@[simp] theorem State.setCtrl_errcode (a b : Bool) : (s.setCtrl a b).errcode = s.errcode := rfl
@[simp] theorem State.setCtrl_strat (a b : Bool) : (s.setCtrl a b).strat = a := rfl
@[simp] theorem State.setCtrl_chk (a b : Bool) : (s.setCtrl a b).chk = b := rfl
@[simp] theorem State.setCtrl_nwords (a b : Bool) : (s.setCtrl a b).nwords = s.nwords := rfl
@[simp] theorem State.setCtrl_cap (a b : Bool) : (s.setCtrl a b).cap = s.cap := rfl
@[simp] theorem State.setCtrl_wmem (a b : Bool) : (s.setCtrl a b).wmem = s.wmem := rfl
@[simp] theorem State.setCtrl_omem (a b : Bool) : (s.setCtrl a b).omem = s.omem := rfl
@[simp] theorem State.setCtrl_script (a b : Bool) : (s.setCtrl a b).script = s.script := rfl
@[simp] theorem State.setCtrl_hRdata (a b : Bool) : (s.setCtrl a b).hRdata = s.hRdata := rfl

@[simp] theorem State.setNwords_cfg (v : RegVal) : (s.setNwords v).cfg = s.cfg := rfl
@[simp] theorem State.setNwords_st (v : RegVal) : (s.setNwords v).st = s.st := rfl
@[simp] theorem State.setNwords_k (v : RegVal) : (s.setNwords v).k = s.k := rfl
@[simp] theorem State.setNwords_base (v : RegVal) : (s.setNwords v).base = s.base := rfl
@[simp] theorem State.setNwords_bitset (v : RegVal) : (s.setNwords v).bitset = s.bitset := rfl
@[simp] theorem State.setNwords_cnt (v : RegVal) : (s.setNwords v).cnt = s.cnt := rfl
@[simp] theorem State.setNwords_errcode (v : RegVal) : (s.setNwords v).errcode = s.errcode := rfl
@[simp] theorem State.setNwords_strat (v : RegVal) : (s.setNwords v).strat = s.strat := rfl
@[simp] theorem State.setNwords_chk (v : RegVal) : (s.setNwords v).chk = s.chk := rfl
@[simp] theorem State.setNwords_nwords (v : RegVal) : (s.setNwords v).nwords = v := rfl
@[simp] theorem State.setNwords_cap (v : RegVal) : (s.setNwords v).cap = s.cap := rfl
@[simp] theorem State.setNwords_wmem (v : RegVal) : (s.setNwords v).wmem = s.wmem := rfl
@[simp] theorem State.setNwords_omem (v : RegVal) : (s.setNwords v).omem = s.omem := rfl
@[simp] theorem State.setNwords_script (v : RegVal) : (s.setNwords v).script = s.script := rfl
@[simp] theorem State.setNwords_hRdata (v : RegVal) : (s.setNwords v).hRdata = s.hRdata := rfl

@[simp] theorem State.setCap_cfg (v : RegVal) : (s.setCap v).cfg = s.cfg := rfl
@[simp] theorem State.setCap_st (v : RegVal) : (s.setCap v).st = s.st := rfl
@[simp] theorem State.setCap_k (v : RegVal) : (s.setCap v).k = s.k := rfl
@[simp] theorem State.setCap_base (v : RegVal) : (s.setCap v).base = s.base := rfl
@[simp] theorem State.setCap_bitset (v : RegVal) : (s.setCap v).bitset = s.bitset := rfl
@[simp] theorem State.setCap_cnt (v : RegVal) : (s.setCap v).cnt = s.cnt := rfl
@[simp] theorem State.setCap_errcode (v : RegVal) : (s.setCap v).errcode = s.errcode := rfl
@[simp] theorem State.setCap_strat (v : RegVal) : (s.setCap v).strat = s.strat := rfl
@[simp] theorem State.setCap_chk (v : RegVal) : (s.setCap v).chk = s.chk := rfl
@[simp] theorem State.setCap_nwords (v : RegVal) : (s.setCap v).nwords = s.nwords := rfl
@[simp] theorem State.setCap_cap (v : RegVal) : (s.setCap v).cap = v := rfl
@[simp] theorem State.setCap_wmem (v : RegVal) : (s.setCap v).wmem = s.wmem := rfl
@[simp] theorem State.setCap_omem (v : RegVal) : (s.setCap v).omem = s.omem := rfl
@[simp] theorem State.setCap_script (v : RegVal) : (s.setCap v).script = s.script := rfl
@[simp] theorem State.setCap_hRdata (v : RegVal) : (s.setCap v).hRdata = s.hRdata := rfl

@[simp] theorem State.setHRdata_cfg (v : RegVal) : (s.setHRdata v).cfg = s.cfg := rfl
@[simp] theorem State.setHRdata_st (v : RegVal) : (s.setHRdata v).st = s.st := rfl
@[simp] theorem State.setHRdata_k (v : RegVal) : (s.setHRdata v).k = s.k := rfl
@[simp] theorem State.setHRdata_base (v : RegVal) : (s.setHRdata v).base = s.base := rfl
@[simp] theorem State.setHRdata_bitset (v : RegVal) : (s.setHRdata v).bitset = s.bitset := rfl
@[simp] theorem State.setHRdata_cnt (v : RegVal) : (s.setHRdata v).cnt = s.cnt := rfl
@[simp] theorem State.setHRdata_errcode (v : RegVal) : (s.setHRdata v).errcode = s.errcode := rfl
@[simp] theorem State.setHRdata_strat (v : RegVal) : (s.setHRdata v).strat = s.strat := rfl
@[simp] theorem State.setHRdata_chk (v : RegVal) : (s.setHRdata v).chk = s.chk := rfl
@[simp] theorem State.setHRdata_nwords (v : RegVal) : (s.setHRdata v).nwords = s.nwords := rfl
@[simp] theorem State.setHRdata_cap (v : RegVal) : (s.setHRdata v).cap = s.cap := rfl
@[simp] theorem State.setHRdata_wmem (v : RegVal) : (s.setHRdata v).wmem = s.wmem := rfl
@[simp] theorem State.setHRdata_omem (v : RegVal) : (s.setHRdata v).omem = s.omem := rfl
@[simp] theorem State.setHRdata_script (v : RegVal) : (s.setHRdata v).script = s.script := rfl
@[simp] theorem State.setHRdata_hRdata (v : RegVal) : (s.setHRdata v).hRdata = v := rfl

@[simp] theorem State.setOmem_cfg (m : Memory) : (s.setOmem m).cfg = s.cfg := rfl
@[simp] theorem State.setOmem_st (m : Memory) : (s.setOmem m).st = s.st := rfl
@[simp] theorem State.setOmem_k (m : Memory) : (s.setOmem m).k = s.k := rfl
@[simp] theorem State.setOmem_base (m : Memory) : (s.setOmem m).base = s.base := rfl
@[simp] theorem State.setOmem_bitset (m : Memory) : (s.setOmem m).bitset = s.bitset := rfl
@[simp] theorem State.setOmem_cnt (m : Memory) : (s.setOmem m).cnt = s.cnt := rfl
@[simp] theorem State.setOmem_errcode (m : Memory) : (s.setOmem m).errcode = s.errcode := rfl
@[simp] theorem State.setOmem_strat (m : Memory) : (s.setOmem m).strat = s.strat := rfl
@[simp] theorem State.setOmem_chk (m : Memory) : (s.setOmem m).chk = s.chk := rfl
@[simp] theorem State.setOmem_nwords (m : Memory) : (s.setOmem m).nwords = s.nwords := rfl
@[simp] theorem State.setOmem_cap (m : Memory) : (s.setOmem m).cap = s.cap := rfl
@[simp] theorem State.setOmem_wmem (m : Memory) : (s.setOmem m).wmem = s.wmem := rfl
@[simp] theorem State.setOmem_omem (m : Memory) : (s.setOmem m).omem = m := rfl
@[simp] theorem State.setOmem_script (m : Memory) : (s.setOmem m).script = s.script := rfl
@[simp] theorem State.setOmem_hRdata (m : Memory) : (s.setOmem m).hRdata = s.hRdata := rfl

@[simp] theorem State.setWmem_cfg (m : Memory) : (s.setWmem m).cfg = s.cfg := rfl
@[simp] theorem State.setWmem_st (m : Memory) : (s.setWmem m).st = s.st := rfl
@[simp] theorem State.setWmem_k (m : Memory) : (s.setWmem m).k = s.k := rfl
@[simp] theorem State.setWmem_base (m : Memory) : (s.setWmem m).base = s.base := rfl
@[simp] theorem State.setWmem_bitset (m : Memory) : (s.setWmem m).bitset = s.bitset := rfl
@[simp] theorem State.setWmem_cnt (m : Memory) : (s.setWmem m).cnt = s.cnt := rfl
@[simp] theorem State.setWmem_errcode (m : Memory) : (s.setWmem m).errcode = s.errcode := rfl
@[simp] theorem State.setWmem_strat (m : Memory) : (s.setWmem m).strat = s.strat := rfl
@[simp] theorem State.setWmem_chk (m : Memory) : (s.setWmem m).chk = s.chk := rfl
@[simp] theorem State.setWmem_nwords (m : Memory) : (s.setWmem m).nwords = s.nwords := rfl
@[simp] theorem State.setWmem_cap (m : Memory) : (s.setWmem m).cap = s.cap := rfl
@[simp] theorem State.setWmem_wmem (m : Memory) : (s.setWmem m).wmem = m := rfl
@[simp] theorem State.setWmem_omem (m : Memory) : (s.setWmem m).omem = s.omem := rfl
@[simp] theorem State.setWmem_script (m : Memory) : (s.setWmem m).script = s.script := rfl
@[simp] theorem State.setWmem_hRdata (m : Memory) : (s.setWmem m).hRdata = s.hRdata := rfl

@[simp] theorem State.setScript_cfg (l : List HostIn) : (s.setScript l).cfg = s.cfg := rfl
@[simp] theorem State.setScript_st (l : List HostIn) : (s.setScript l).st = s.st := rfl
@[simp] theorem State.setScript_k (l : List HostIn) : (s.setScript l).k = s.k := rfl
@[simp] theorem State.setScript_base (l : List HostIn) : (s.setScript l).base = s.base := rfl
@[simp] theorem State.setScript_bitset (l : List HostIn) : (s.setScript l).bitset = s.bitset := rfl
@[simp] theorem State.setScript_cnt (l : List HostIn) : (s.setScript l).cnt = s.cnt := rfl
@[simp] theorem State.setScript_errcode (l : List HostIn) : (s.setScript l).errcode = s.errcode := rfl
@[simp] theorem State.setScript_strat (l : List HostIn) : (s.setScript l).strat = s.strat := rfl
@[simp] theorem State.setScript_chk (l : List HostIn) : (s.setScript l).chk = s.chk := rfl
@[simp] theorem State.setScript_nwords (l : List HostIn) : (s.setScript l).nwords = s.nwords := rfl
@[simp] theorem State.setScript_cap (l : List HostIn) : (s.setScript l).cap = s.cap := rfl
@[simp] theorem State.setScript_wmem (l : List HostIn) : (s.setScript l).wmem = s.wmem := rfl
@[simp] theorem State.setScript_omem (l : List HostIn) : (s.setScript l).omem = s.omem := rfl
@[simp] theorem State.setScript_script (l : List HostIn) : (s.setScript l).script = l := rfl
@[simp] theorem State.setScript_hRdata (l : List HostIn) : (s.setScript l).hRdata = s.hRdata := rfl

@[simp] theorem State.zeroScan_cfg : (s.zeroScan).cfg = s.cfg := rfl
@[simp] theorem State.zeroScan_st : (s.zeroScan).st = s.st := rfl
@[simp] theorem State.zeroScan_k : (s.zeroScan).k = 0 := rfl
@[simp] theorem State.zeroScan_base : (s.zeroScan).base = 0 := rfl
@[simp] theorem State.zeroScan_bitset : (s.zeroScan).bitset = 0 := rfl
@[simp] theorem State.zeroScan_cnt : (s.zeroScan).cnt = 0 := rfl
@[simp] theorem State.zeroScan_errcode : (s.zeroScan).errcode = s.errcode := rfl
@[simp] theorem State.zeroScan_strat : (s.zeroScan).strat = s.strat := rfl
@[simp] theorem State.zeroScan_chk : (s.zeroScan).chk = s.chk := rfl
@[simp] theorem State.zeroScan_nwords : (s.zeroScan).nwords = s.nwords := rfl
@[simp] theorem State.zeroScan_cap : (s.zeroScan).cap = s.cap := rfl
@[simp] theorem State.zeroScan_wmem : (s.zeroScan).wmem = s.wmem := rfl
@[simp] theorem State.zeroScan_omem : (s.zeroScan).omem = s.omem := rfl
@[simp] theorem State.zeroScan_script : (s.zeroScan).script = s.script := rfl
@[simp] theorem State.zeroScan_hRdata : (s.zeroScan).hRdata = s.hRdata := rfl

@[simp] theorem State.raise_cfg (e : HwError) : (s.raise e).cfg = s.cfg := rfl
@[simp] theorem State.raise_st (e : HwError) : (s.raise e).st = .fault := rfl
@[simp] theorem State.raise_k (e : HwError) : (s.raise e).k = s.k := rfl
@[simp] theorem State.raise_base (e : HwError) : (s.raise e).base = s.base := rfl
@[simp] theorem State.raise_bitset (e : HwError) : (s.raise e).bitset = s.bitset := rfl
@[simp] theorem State.raise_cnt (e : HwError) : (s.raise e).cnt = s.cnt := rfl
@[simp] theorem State.raise_errcode (e : HwError) : (s.raise e).errcode = e.code := rfl
@[simp] theorem State.raise_strat (e : HwError) : (s.raise e).strat = s.strat := rfl
@[simp] theorem State.raise_chk (e : HwError) : (s.raise e).chk = s.chk := rfl
@[simp] theorem State.raise_nwords (e : HwError) : (s.raise e).nwords = s.nwords := rfl
@[simp] theorem State.raise_cap (e : HwError) : (s.raise e).cap = s.cap := rfl
@[simp] theorem State.raise_wmem (e : HwError) : (s.raise e).wmem = s.wmem := rfl
@[simp] theorem State.raise_omem (e : HwError) : (s.raise e).omem = s.omem := rfl
@[simp] theorem State.raise_script (e : HwError) : (s.raise e).script = s.script := rfl
@[simp] theorem State.raise_hRdata (e : HwError) : (s.raise e).hRdata = s.hRdata := rfl

@[simp] theorem State.acknowledge_cfg : (s.acknowledge).cfg = s.cfg := rfl
@[simp] theorem State.acknowledge_st : (s.acknowledge).st = .idle := rfl
@[simp] theorem State.acknowledge_k : (s.acknowledge).k = 0 := rfl
@[simp] theorem State.acknowledge_base : (s.acknowledge).base = 0 := rfl
@[simp] theorem State.acknowledge_bitset : (s.acknowledge).bitset = 0 := rfl
@[simp] theorem State.acknowledge_cnt : (s.acknowledge).cnt = 0 := rfl
@[simp] theorem State.acknowledge_errcode : (s.acknowledge).errcode = 0 := rfl
@[simp] theorem State.acknowledge_strat : (s.acknowledge).strat = s.strat := rfl
@[simp] theorem State.acknowledge_chk : (s.acknowledge).chk = s.chk := rfl
@[simp] theorem State.acknowledge_nwords : (s.acknowledge).nwords = s.nwords := rfl
@[simp] theorem State.acknowledge_cap : (s.acknowledge).cap = s.cap := rfl
@[simp] theorem State.acknowledge_wmem : (s.acknowledge).wmem = s.wmem := rfl
@[simp] theorem State.acknowledge_omem : (s.acknowledge).omem = s.omem := rfl
@[simp] theorem State.acknowledge_script : (s.acknowledge).script = s.script := rfl
@[simp] theorem State.acknowledge_hRdata : (s.acknowledge).hRdata = s.hRdata := rfl

@[simp] theorem State.beginDecode_cfg : (s.beginDecode).cfg = s.cfg := rfl
@[simp] theorem State.beginDecode_st : (s.beginDecode).st = .fetch := rfl
@[simp] theorem State.beginDecode_k : (s.beginDecode).k = 0 := rfl
@[simp] theorem State.beginDecode_base : (s.beginDecode).base = 0 := rfl
@[simp] theorem State.beginDecode_bitset : (s.beginDecode).bitset = 0 := rfl
@[simp] theorem State.beginDecode_cnt : (s.beginDecode).cnt = 0 := rfl
@[simp] theorem State.beginDecode_errcode : (s.beginDecode).errcode = 0 := rfl
@[simp] theorem State.beginDecode_strat : (s.beginDecode).strat = s.strat := rfl
@[simp] theorem State.beginDecode_chk : (s.beginDecode).chk = s.chk := rfl
@[simp] theorem State.beginDecode_nwords : (s.beginDecode).nwords = s.nwords := rfl
@[simp] theorem State.beginDecode_cap : (s.beginDecode).cap = s.cap := rfl
@[simp] theorem State.beginDecode_wmem : (s.beginDecode).wmem = s.wmem := rfl
@[simp] theorem State.beginDecode_omem : (s.beginDecode).omem = s.omem := rfl
@[simp] theorem State.beginDecode_script : (s.beginDecode).script = s.script := rfl
@[simp] theorem State.beginDecode_hRdata : (s.beginDecode).hRdata = s.hRdata := rfl

@[simp] theorem State.applyReset_cfg : (s.applyReset).cfg = s.cfg := rfl
@[simp] theorem State.applyReset_st : (s.applyReset).st = .idle := rfl
@[simp] theorem State.applyReset_k : (s.applyReset).k = 0 := rfl
@[simp] theorem State.applyReset_base : (s.applyReset).base = 0 := rfl
@[simp] theorem State.applyReset_bitset : (s.applyReset).bitset = 0 := rfl
@[simp] theorem State.applyReset_cnt : (s.applyReset).cnt = 0 := rfl
@[simp] theorem State.applyReset_errcode : (s.applyReset).errcode = 0 := rfl
@[simp] theorem State.applyReset_strat : (s.applyReset).strat = false := rfl
@[simp] theorem State.applyReset_chk : (s.applyReset).chk = true := rfl
@[simp] theorem State.applyReset_nwords : (s.applyReset).nwords = 0 := rfl
@[simp] theorem State.applyReset_cap : (s.applyReset).cap = 0 := rfl
@[simp] theorem State.applyReset_wmem : (s.applyReset).wmem = s.wmem := rfl
@[simp] theorem State.applyReset_omem : (s.applyReset).omem = s.omem := rfl
@[simp] theorem State.applyReset_script : (s.applyReset).script = s.script := rfl
@[simp] theorem State.applyReset_hRdata : (s.applyReset).hRdata = s.hRdata := rfl

@[simp] theorem State.tick_cfg : (s.tick).cfg = s.cfg := rfl
@[simp] theorem State.tick_st : (s.tick).st = s.st := rfl
@[simp] theorem State.tick_k : (s.tick).k = s.k := rfl
@[simp] theorem State.tick_base : (s.tick).base = s.base := rfl
@[simp] theorem State.tick_bitset : (s.tick).bitset = s.bitset := rfl
@[simp] theorem State.tick_cnt : (s.tick).cnt = s.cnt := rfl
@[simp] theorem State.tick_errcode : (s.tick).errcode = s.errcode := rfl
@[simp] theorem State.tick_strat : (s.tick).strat = s.strat := rfl
@[simp] theorem State.tick_chk : (s.tick).chk = s.chk := rfl
@[simp] theorem State.tick_nwords : (s.tick).nwords = s.nwords := rfl
@[simp] theorem State.tick_cap : (s.tick).cap = s.cap := rfl
@[simp] theorem State.tick_wmem : (s.tick).wmem = s.wmem := rfl
@[simp] theorem State.tick_omem : (s.tick).omem = s.omem := rfl
@[simp] theorem State.tick_script : (s.tick).script = s.script.tail := rfl
@[simp] theorem State.tick_hRdata : (s.tick).hRdata = 0 := rfl

@[simp] theorem State.exceptStrat_cfg : (s.exceptStrat).cfg = s.cfg := rfl
@[simp] theorem State.exceptStrat_st : (s.exceptStrat).st = s.st := rfl
@[simp] theorem State.exceptStrat_k : (s.exceptStrat).k = s.k := rfl
@[simp] theorem State.exceptStrat_base : (s.exceptStrat).base = s.base := rfl
@[simp] theorem State.exceptStrat_bitset : (s.exceptStrat).bitset = s.bitset := rfl
@[simp] theorem State.exceptStrat_cnt : (s.exceptStrat).cnt = s.cnt := rfl
@[simp] theorem State.exceptStrat_errcode : (s.exceptStrat).errcode = s.errcode := rfl
@[simp] theorem State.exceptStrat_strat : (s.exceptStrat).strat = false := rfl
@[simp] theorem State.exceptStrat_chk : (s.exceptStrat).chk = s.chk := rfl
@[simp] theorem State.exceptStrat_nwords : (s.exceptStrat).nwords = s.nwords := rfl
@[simp] theorem State.exceptStrat_cap : (s.exceptStrat).cap = s.cap := rfl
@[simp] theorem State.exceptStrat_wmem : (s.exceptStrat).wmem = s.wmem := rfl
@[simp] theorem State.exceptStrat_omem : (s.exceptStrat).omem = s.omem := rfl
@[simp] theorem State.exceptStrat_script : (s.exceptStrat).script = s.script := rfl
@[simp] theorem State.exceptStrat_hRdata : (s.exceptStrat).hRdata = 0 := rfl

@[simp] theorem State.exceptOmem_cfg : (s.exceptOmem).cfg = s.cfg := rfl
@[simp] theorem State.exceptOmem_st : (s.exceptOmem).st = s.st := rfl
@[simp] theorem State.exceptOmem_k : (s.exceptOmem).k = s.k := rfl
@[simp] theorem State.exceptOmem_base : (s.exceptOmem).base = s.base := rfl
@[simp] theorem State.exceptOmem_bitset : (s.exceptOmem).bitset = s.bitset := rfl
@[simp] theorem State.exceptOmem_cnt : (s.exceptOmem).cnt = s.cnt := rfl
@[simp] theorem State.exceptOmem_errcode : (s.exceptOmem).errcode = s.errcode := rfl
@[simp] theorem State.exceptOmem_strat : (s.exceptOmem).strat = s.strat := rfl
@[simp] theorem State.exceptOmem_chk : (s.exceptOmem).chk = s.chk := rfl
@[simp] theorem State.exceptOmem_nwords : (s.exceptOmem).nwords = s.nwords := rfl
@[simp] theorem State.exceptOmem_cap : (s.exceptOmem).cap = s.cap := rfl
@[simp] theorem State.exceptOmem_wmem : (s.exceptOmem).wmem = s.wmem := rfl
@[simp] theorem State.exceptOmem_omem : (s.exceptOmem).omem = [] := rfl
@[simp] theorem State.exceptOmem_script : (s.exceptOmem).script = s.script := rfl
@[simp] theorem State.exceptOmem_hRdata : (s.exceptOmem).hRdata = s.hRdata := rfl

end

end Sys2Proof.Machine
end

