-- ==== Sys2Proof/Laws/Ops.lean ====
section
/-! SUPPORT. One lemma per shared operation: everything it can do. -/

namespace Sys2Proof.Machine

/-- A write lands below CAP, in the output memory alone, or not at all (R48, R154). -/
theorem State.memWrite_cases (s : State) (i v : RegVal) :
    (i.toNat < s.cap.toNat ∧ s.memWrite i v = some (s.setOmem (Memory.write s.omem i.toNat v))) ∨
    (s.cap.toNat ≤ i.toNat ∧ s.memWrite i v = none) := by
  unfold State.memWrite
  split
  · exact .inl ⟨by assumption, rfl⟩
  · exact .inr ⟨by omega, rfl⟩

/-- The next state of an emit. -/
theorem State.emit_next {s t : State} {idx : BitIdx} {clr : Word} (h : s.emit idx clr = .next t) :
    s.cnt.toNat < s.cap.toNat ∧
    t = (s.setOmem (Memory.write s.omem s.cnt.toNat (posAdd s.cfg s.base idx))).setScan
      s.k s.base (s.bitset ^^^ clr) (addPosw s.cfg s.cnt 1) := by
  unfold State.emit at h
  rcases s.memWrite_cases s.cnt (posAdd s.cfg s.base idx) with ⟨hlt, hw⟩ | ⟨_, hw⟩ <;> rw [hw] at h
  · exact ⟨hlt, (Host.Outcome.next.inj h).symm⟩
  · cases h

/-- An emit below CAP completes. -/
theorem State.emit_of_lt {s : State} {idx : BitIdx} {clr : Word} (h : s.cnt.toNat < s.cap.toNat) :
    s.emit idx clr = .next ((s.setOmem (Memory.write s.omem s.cnt.toNat (posAdd s.cfg s.base idx))).setScan
      s.k s.base (s.bitset ^^^ clr) (addPosw s.cfg s.cnt 1)) := by
  simp [State.emit, State.memWrite, h]

/-- An emit that would leave the buffer stops (R154). -/
theorem State.emit_of_ge {s : State} {idx : BitIdx} {clr : Word} (h : s.cap.toNat ≤ s.cnt.toNat) :
    s.emit idx clr = .fault .unsafeOverflow := by
  simp [State.emit, State.memWrite, Nat.not_lt.2 h]

theorem State.unlessBusy_busy {s : State} (t : State) (h : s.busy = true) : s.unlessBusy t = s := by
  simp [State.unlessBusy, h]

theorem State.unlessBusy_notBusy {s : State} (t : State) (h : s.busy = false) : s.unlessBusy t = t := by
  simp [State.unlessBusy, h]

theorem State.busy_iff (s : State) : s.busy = true ↔ s.st = .fetch ∨ s.st = .scan := by
  simp [State.busy]

theorem State.notBusy_iff (s : State) : s.busy = false ↔ s.st = .idle ∨ s.st = .done ∨ s.st = .fault := by
  cases h : s.st <;> simp [State.busy, h]

@[simp] theorem State.busy_tick (s : State) : s.tick.busy = s.busy := rfl
@[simp] theorem State.busy_setHRdata (s : State) (v : RegVal) : (s.setHRdata v).busy = s.busy := rfl

/-- Every register reads as a POSW-bit value where the stored ones are (R19). -/
theorem State.readReg_lt {s : State} (a : BitVec 3) (hn : s.nwords.toNat < 2 ^ s.cfg.posw.bits)
    (hc : s.cap.toNat < 2 ^ s.cfg.posw.bits) (hk : s.cnt.toNat < 2 ^ s.cfg.posw.bits) :
    (s.readReg a).toNat < 2 ^ s.cfg.posw.bits := by
  have h32 : (2 : Nat) ^ 32 ≤ 2 ^ s.cfg.posw.bits := Nat.pow_le_pow_right (by decide) (by cases s.cfg.posw <;> decide)
  have hctrl : s.ctrlWord.toNat < 2 ^ 32 := by
    unfold State.ctrlWord
    cases s.chk <;> cases s.strat <;> decide
  have hstatus : s.statusWord.toNat < 2 ^ 32 := by
    unfold State.statusWord State.errBit State.doneBit State.busy
    cases s.st <;> decide
  have herr : (s.errcode.setWidth 64).toNat < 2 ^ 32 := by
    have := s.errcode.isLt
    rw [BitVec.toNat_setWidth, Nat.mod_eq_of_lt] <;> omega
  unfold State.readReg
  split <;> first | assumption | omega | exact Nat.lt_of_lt_of_le (by decide) h32

end Sys2Proof.Machine
end

