-- ==== Sys2Proof/Laws/PerInstr.lean ====
section
/-! SUPPORT. A family of statements made per instruction: the code an instruction is encoded as lies in the instruction's own
row of spec/opcode_table.json. -/

namespace Sys2Proof.Laws

/-- The encoding of an instruction lies in its row: `(bits & mask) = pattern`, in the row's format (R60, R61, R67). -/
def EncodedInRow.Statement (i : Instr) : Prop := (encode i).inRow (opcodeRow i) = true

theorem EncodedInRow.rd (a : BitVec 3) : EncodedInRow.Statement (.rd a) := by
  revert a
  unfold EncodedInRow.Statement
  decide
theorem EncodedInRow.wrCtrl (d : RegVal) : EncodedInRow.Statement (.wrCtrl d) :=
  (by decide : (Code.reg (regCode true 0) 0).inRow ⟨.reg, 4, 0x8, 0xF⟩ = true)
theorem EncodedInRow.wrCmd (d : RegVal) : EncodedInRow.Statement (.wrCmd d) :=
  (by decide : (Code.reg (regCode true 1) 0).inRow ⟨.reg, 4, 0x9, 0xF⟩ = true)
theorem EncodedInRow.wrStatus (d : RegVal) : EncodedInRow.Statement (.wrStatus d) :=
  (by decide : (Code.reg (regCode true 2) 0).inRow ⟨.reg, 4, 0xA, 0xF⟩ = true)
theorem EncodedInRow.wrNwords (d : RegVal) : EncodedInRow.Statement (.wrNwords d) :=
  (by decide : (Code.reg (regCode true 3) 0).inRow ⟨.reg, 4, 0xB, 0xF⟩ = true)
theorem EncodedInRow.wrCap (d : RegVal) : EncodedInRow.Statement (.wrCap d) :=
  (by decide : (Code.reg (regCode true 4) 0).inRow ⟨.reg, 4, 0xC, 0xF⟩ = true)
theorem EncodedInRow.wrCard (d : RegVal) : EncodedInRow.Statement (.wrCard d) :=
  (by decide : (Code.reg (regCode true 5) 0).inRow ⟨.reg, 4, 0xD, 0xF⟩ = true)
theorem EncodedInRow.wrErrcode (d : RegVal) : EncodedInRow.Statement (.wrErrcode d) :=
  (by decide : (Code.reg (regCode true 6) 0).inRow ⟨.reg, 4, 0xE, 0xF⟩ = true)
theorem EncodedInRow.wrRsv7 (d : RegVal) : EncodedInRow.Statement (.wrRsv7 d) :=
  (by decide : (Code.reg (regCode true 7) 0).inRow ⟨.reg, 4, 0xF, 0xF⟩ = true)
theorem EncodedInRow.nop : EncodedInRow.Statement .nop := rfl
theorem EncodedInRow.start : EncodedInRow.Statement .start := rfl
theorem EncodedInRow.clear : EncodedInRow.Statement .clear := rfl
theorem EncodedInRow.cmdRsv3 : EncodedInRow.Statement .cmdRsv3 := rfl
theorem EncodedInRow.uFetch : EncodedInRow.Statement .uFetch := rfl
theorem EncodedInRow.uFinish : EncodedInRow.Statement .uFinish := rfl
theorem EncodedInRow.uSkip : EncodedInRow.Statement .uSkip := rfl
theorem EncodedInRow.uEmitTzc : EncodedInRow.Statement .uEmitTzc := rfl
theorem EncodedInRow.uEmitLsb : EncodedInRow.Statement .uEmitLsb := rfl
theorem EncodedInRow.uTrapCap : EncodedInRow.Statement .uTrapCap := rfl
theorem EncodedInRow.uHold : EncodedInRow.Statement .uHold := rfl

end Sys2Proof.Laws
end

