-- ==== Sys2Proof/Laws/Step.lean ====
section
/-! SUPPORT. Everything a step can do: the selection of the micro-operation by the state, and the cases of a next state. -/

namespace Sys2Proof.Machine

/-- The micro-operation that R67 selects, read off the state and the predicates. -/
def selected (st : St) (e z f s : Bool) : Instr :=
  match st with
  | .fetch => if e then .uFinish else .uFetch
  | .scan => if z then .uSkip else if f then .uTrapCap else if s then .uEmitLsb else .uEmitTzc
  | .idle => .uHold
  | .done => .uHold
  | .fault => .uHold

theorem decodeUop_vector (st : St) (e z f s : Bool) :
    decodeUop (st.code ++ BitVec.ofBool e ++ BitVec.ofBool z ++ BitVec.ofBool f ++ BitVec.ofBool s) =
      .ok (selected st e z f s) := by
  cases st <;> cases e <;> cases z <;> cases f <;> cases s <;> rfl

/-- The micro-operation of every state. -/
theorem State.microOp_eq (s : State) :
    s.microOp = .ok (selected s.st s.endPred s.zeroPred s.fullPred s.strat) :=
  decodeUop_vector _ _ _ _ _

/-- A reset step. -/
theorem step_reset {s : State} (h : s.hostNow.rst = true) : step s = .next s.tick.applyReset := by
  simp [step, cycle, h]

/-- Any other step: the host's access, then the selected micro-operation. -/
theorem step_run {s : State} (h : s.hostNow.rst = false) :
    step s = andThen (hostPhase s) (exec (selected s.st s.endPred s.zeroPred s.fullPred s.strat)) := by
  simp [step, cycle, h, State.microOp_eq]

theorem andThen_next {o : Host.Outcome State Fault Refusal} {f : State → Host.Outcome State Fault Refusal} {t : State}
    (h : andThen o f = .next t) : ∃ m, o = .next m ∧ f m = .next t := by
  cases o with
  | next m => exact ⟨m, rfl, h⟩
  | fault r => cases h
  | refused r => cases h

/-- Everything the host's part of a step can do to the machine: nothing but drive `h_rdata` (a read, an ignored write, a
command without effect, no access), or, while the block is not busy, write one configuration register, or act as START or
CLEAR; each with what the pins present. -/
inductive HostEffect (s : State) : State → Prop where
  | quiet (hp : s.hostNow.isRead = false)
      (hq : s.busy = false → s.hostNow.isStart = false ∧ s.hostNow.isClear = false) : HostEffect s s.tick
  | read (hp : s.hostNow.isRead = true) (hs : s.hostNow.isStart = false) (hc : s.hostNow.isClear = false) :
      HostEffect s (s.tick.setHRdata (s.readReg s.hostNow.hAddr))
  | ctrl (d : RegVal) (hb : s.busy = false) (hp : s.hostNow.isRead = false) (hs : s.hostNow.isStart = false)
      (hc : s.hostNow.isClear = false) : HostEffect s (s.tick.setCtrl (ctrlStrat d) (ctrlChk d))
  | nwords (d : RegVal) (hb : s.busy = false) (hp : s.hostNow.isRead = false) (hs : s.hostNow.isStart = false)
      (hc : s.hostNow.isClear = false) : HostEffect s (s.tick.setNwords (trunc s.cfg d))
  | cap (d : RegVal) (hb : s.busy = false) (hp : s.hostNow.isRead = false) (hs : s.hostNow.isStart = false)
      (hc : s.hostNow.isClear = false) : HostEffect s (s.tick.setCap (trunc s.cfg d))
  | begin (hb : s.busy = false) (hp : s.hostNow.isRead = false) (hs : s.hostNow.isStart = true)
      (hc : s.hostNow.isClear = false) (hn : s.nwords.toNat ≤ s.cfg.nmax) : HostEffect s s.tick.beginDecode
  | invalid (hb : s.busy = false) (hp : s.hostNow.isRead = false) (hs : s.hostNow.isStart = true)
      (hc : s.hostNow.isClear = false) (hn : s.cfg.nmax < s.nwords.toNat) : HostEffect s (s.tick.zeroScan.raise .invalidInputError)
  | clear (hb : s.busy = false) (hp : s.hostNow.isRead = false) (hs : s.hostNow.isStart = false)
      (hc : s.hostNow.isClear = true) :
      HostEffect s s.tick.acknowledge

@[simp] theorem regWe_regCode (we : Bool) (a : BitVec 3) : regWe (regCode we a) = we := by
  revert we a
  decide

@[simp] theorem regAddr_regCode (we : Bool) (a : BitVec 3) : regAddr (regCode we a) = a := by
  revert we a
  decide

/-- The command code is in the low bits, which the data lines always carry. -/
@[simp] theorem cmdCode_trunc (c : Config) (d : RegVal) : cmdCode (trunc c d) = cmdCode d := by
  unfold trunc
  cases c.posw
  · apply BitVec.eq_of_toNat_eq
    have h : (0xFFFFFFFF#64).toNat = 2 ^ 32 - 1 := rfl
    simp only [cmdCode, BitVec.extractLsb'_toNat, Nat.shiftRight_zero, BitVec.toNat_and, h, Nat.and_two_pow_sub_one_eq_mod]
    omega
  · rfl

/-- A write that `unlessBusy` guards either is ignored or takes effect. -/
theorem unlessBusy_effect {s t : State} (hp : s.hostNow.isRead = false)
    (hq : s.busy = false → s.hostNow.isStart = false ∧ s.hostNow.isClear = false)
    (h : s.busy = false → HostEffect s t) : HostEffect s (s.tick.unlessBusy t) := by
  cases hb : s.busy with
  | true => rw [State.unlessBusy_busy _ (by simpa using hb)]; exact .quiet hp hq
  | false => rw [State.unlessBusy_notBusy _ (by simpa using hb)]; exact h hb

/-- What a WR.CMD on the pins does. -/
theorem execWrCmd_effect (s : State) (hv : s.hostNow.hValid = true) (hw : s.hostNow.hWe = true)
    (ha : s.hostNow.hAddr = 1) :
    ∃ m, execWrCmd (trunc s.cfg s.hostNow.hWdata) s.tick = .next m ∧ HostEffect s m := by
  have hp : s.hostNow.isRead = false := by simp [HostIn.isRead, hw]
  have hstart : ∀ c, cmdCode s.hostNow.hWdata = c → s.hostNow.isStart = decide (c = 1) := by
    rintro c rfl
    simp [HostIn.isStart, hv, hw, ha]
  have hclear : ∀ c, cmdCode s.hostNow.hWdata = c → s.hostNow.isClear = decide (c = 2) := by
    rintro c rfl
    simp [HostIn.isClear, hv, hw, ha]
  unfold execWrCmd
  rw [cmdCode_trunc, State.busy_tick]
  cases hb : s.busy with
  | true => exact ⟨_, rfl, .quiet hp (by simp [hb])⟩
  | false =>
    have hcases : ∀ c : BitVec 2, c = 0 ∨ c = 1 ∨ c = 2 ∨ c = 3 := by decide
    rcases hcases (cmdCode s.hostNow.hWdata) with h | h | h | h <;> rw [h]
    · exact ⟨_, rfl, .quiet hp fun _ => ⟨hstart _ h, hclear _ h⟩⟩
    · refine ⟨_, rfl, ?_⟩
      rw [State.unlessBusy_notBusy _ (by simpa using hb)]
      by_cases hn : s.cfg.nmax < s.nwords.toNat
      · rw [if_pos (by simpa using hn)]
        exact .invalid hb hp (hstart _ h) (hclear _ h) hn
      · rw [if_neg (by simpa using hn)]
        exact .begin hb hp (hstart _ h) (hclear _ h) (Nat.le_of_not_lt hn)
    · refine ⟨_, rfl, ?_⟩
      rw [State.unlessBusy_notBusy _ (by simpa using hb)]
      exact .clear hb hp (hstart _ h) (hclear _ h)
    · exact ⟨_, rfl, .quiet hp fun _ => ⟨hstart _ h, hclear _ h⟩⟩

/-- The host's part of a step always answers a next state, by one of the cases of `HostEffect`. -/
theorem hostPhase_effect (s : State) : ∃ m, hostPhase s = .next m ∧ HostEffect s m := by
  unfold hostPhase State.hostInstr
  cases hv : s.hostNow.hValid with
  | false =>
    exact ⟨_, rfl, .quiet (by simp [HostIn.isRead, hv]) fun _ => by simp [HostIn.isStart, HostIn.isClear, hv]⟩
  | true =>
    simp only [if_true, decodeReg, HostIn.code, regWe_regCode, regAddr_regCode]
    cases hw : s.hostNow.hWe with
    | false =>
      exact ⟨_, rfl, .read (by simp [HostIn.isRead, hv, hw]) (by simp [HostIn.isStart, hw]) (by simp [HostIn.isClear, hw])⟩
    | true =>
      have hp : s.hostNow.isRead = false := by simp [HostIn.isRead, hw]
      have hcases : ∀ a : BitVec 3, a = 0 ∨ a = 1 ∨ a = 2 ∨ a = 3 ∨ a = 4 ∨ a = 5 ∨ a = 6 ∨ a = 7 := by decide
      have hns : s.hostNow.hAddr ≠ 1 → s.hostNow.isStart = false ∧ s.hostNow.isClear = false := fun h => by
        have h' : ¬ s.hostNow.hAddr = 1#3 := h
        simp [HostIn.isStart, HostIn.isClear, h']
      rcases hcases s.hostNow.hAddr with h | h | h | h | h | h | h | h
      case inr.inl =>
        rw [h]
        exact execWrCmd_effect s hv hw h
      all_goals
        have hn := hns (by rw [h]; decide)
        rw [h]
        first
          | exact ⟨_, rfl, unlessBusy_effect hp (fun _ => hn) fun hb => .ctrl _ hb hp hn.1 hn.2⟩
          | exact ⟨_, rfl, unlessBusy_effect hp (fun _ => hn) fun hb => .nwords _ hb hp hn.1 hn.2⟩
          | exact ⟨_, rfl, unlessBusy_effect hp (fun _ => hn) fun hb => .cap _ hb hp hn.1 hn.2⟩
          | exact ⟨_, rfl, .quiet hp fun _ => hn⟩

/-- The value `h_rdata` carries in a step that is no reset step: a register's value before the step, or 0 (R60, R121). -/
def State.answer (s : State) : RegVal := if s.hostNow.isRead then s.readReg s.hostNow.hAddr else 0

/-- While busy the host's part changes nothing but `h_rdata` (R121, R131). -/
theorem HostEffect.busy_eq {s m : State} (h : HostEffect s m) (hb : s.busy = true) : m = s.tick.setHRdata s.answer := by
  cases h with
  | quiet hp => simp only [State.answer, hp]; rfl
  | read hp => simp only [State.answer, hp]; rfl
  | ctrl _ h => simp [h] at hb
  | nwords _ h => simp [h] at hb
  | cap _ h => simp [h] at hb
  | begin h => simp [h] at hb
  | invalid h => simp [h] at hb
  | clear h => simp [h] at hb

/-- The state a busy micro-operation starts from. -/
def State.answered (s : State) : State := s.tick.setHRdata s.answer

@[simp] theorem State.answered_cfg (s : State) : s.answered.cfg = s.cfg := rfl
@[simp] theorem State.answered_st (s : State) : s.answered.st = s.st := rfl
@[simp] theorem State.answered_k (s : State) : s.answered.k = s.k := rfl
@[simp] theorem State.answered_base (s : State) : s.answered.base = s.base := rfl
@[simp] theorem State.answered_bitset (s : State) : s.answered.bitset = s.bitset := rfl
@[simp] theorem State.answered_cnt (s : State) : s.answered.cnt = s.cnt := rfl
@[simp] theorem State.answered_errcode (s : State) : s.answered.errcode = s.errcode := rfl
@[simp] theorem State.answered_strat (s : State) : s.answered.strat = s.strat := rfl
@[simp] theorem State.answered_chk (s : State) : s.answered.chk = s.chk := rfl
@[simp] theorem State.answered_nwords (s : State) : s.answered.nwords = s.nwords := rfl
@[simp] theorem State.answered_cap (s : State) : s.answered.cap = s.cap := rfl
@[simp] theorem State.answered_wmem (s : State) : s.answered.wmem = s.wmem := rfl
@[simp] theorem State.answered_omem (s : State) : s.answered.omem = s.omem := rfl
@[simp] theorem State.answered_script (s : State) : s.answered.script = s.script.tail := rfl
@[simp] theorem State.answered_hRdata (s : State) : s.answered.hRdata = s.answer := rfl

/-- Everything a step that answers a next state can be. -/
inductive StepCase (s : State) : State → Prop where
  | reset (hr : s.hostNow.rst = true) : StepCase s s.tick.applyReset
  | host (t : State) (hr : s.hostNow.rst = false) (hb : s.busy = false) (h : HostEffect s t) : StepCase s t
  | fetch (w : Word) (hr : s.hostNow.rst = false) (hs : s.st = .fetch) (he : s.k.toNat < s.nwords.toNat)
      (hw : Memory.read s.wmem s.k.toNat = some w) : StepCase s ((s.answered.setScan s.k s.base w s.cnt).setSt .scan)
  | finish (hr : s.hostNow.rst = false) (hs : s.st = .fetch) (he : s.nwords.toNat ≤ s.k.toNat) :
      StepCase s (s.answered.setSt .done)
  | skip (hr : s.hostNow.rst = false) (hs : s.st = .scan) (hz : s.bitset = 0) :
      StepCase s ((s.answered.setScan (addPosw s.cfg s.k 1) (addPosw s.cfg s.base 64) s.bitset s.cnt).setSt .fetch)
  | emit (hr : s.hostNow.rst = false) (hs : s.st = .scan) (hz : s.bitset ≠ 0) (hf : s.fullPred = false)
      (hc : s.cnt.toNat < s.cap.toNat) :
      StepCase s ((s.answered.setOmem (Memory.write s.omem s.cnt.toNat
          (posAdd s.cfg s.base (idxMux s.strat s.bitset)))).setScan s.k s.base
        (s.bitset ^^^ clrMux s.strat s.bitset) (addPosw s.cfg s.cnt 1))
  | trap (hr : s.hostNow.rst = false) (hs : s.st = .scan) (hz : s.bitset ≠ 0) (hk : s.chk = true)
      (hc : s.cap.toNat ≤ s.cnt.toNat) : StepCase s (s.answered.raise .capacityError)

/-- The inversion of `step`: every next state is one of the cases. -/
theorem step_cases {s t : State} (h : step s = .next t) : StepCase s t := by
  cases hr : s.hostNow.rst with
  | true =>
    rw [step_reset hr] at h
    cases h
    exact .reset hr
  | false =>
    rw [step_run hr] at h
    obtain ⟨m, hm, he⟩ := hostPhase_effect s
    rw [hm] at h
    have hrun : exec (selected s.st s.endPred s.zeroPred s.fullPred s.strat) m = .next t := h
    cases hst : s.st with
    | idle => rw [hst] at hrun; cases hrun; exact .host _ hr (by simp [State.busy, hst]) he
    | done => rw [hst] at hrun; cases hrun; exact .host _ hr (by simp [State.busy, hst]) he
    | fault => rw [hst] at hrun; cases hrun; exact .host _ hr (by simp [State.busy, hst]) he
    | fetch =>
      obtain rfl := he.busy_eq (by simp [State.busy, hst])
      rw [hst] at hrun
      cases hend : s.endPred with
      | true =>
        rw [hend] at hrun; cases hrun
        exact .finish hr hst (by simpa [State.endPred] using hend)
      | false =>
        rw [hend] at hrun
        change execUFetch _ = _ at hrun
        unfold execUFetch at hrun
        split at hrun
        · next w hw =>
          cases hrun
          exact .fetch w hr hst (by simpa [State.endPred] using hend) hw
        · cases hrun
    | scan =>
      obtain rfl := he.busy_eq (by simp [State.busy, hst])
      rw [hst] at hrun
      cases hz : s.zeroPred with
      | true =>
        rw [hz] at hrun; cases hrun
        exact .skip hr hst (by simpa [State.zeroPred] using hz)
      | false =>
        have hz' : s.bitset ≠ 0 := by simpa [State.zeroPred] using hz
        rw [hz] at hrun
        cases hf : s.fullPred with
        | true =>
          rw [hf] at hrun; cases hrun
          have hf' := hf
          simp only [State.fullPred, Bool.and_eq_true, decide_eq_true_eq] at hf'
          exact .trap hr hst hz' hf'.1 hf'.2
        | false =>
          rw [hf] at hrun
          cases hs : s.strat with
          | true =>
            rw [hs] at hrun
            change s.answered.emit _ _ = _ at hrun
            obtain ⟨hc, rfl⟩ := State.emit_next hrun
            have := StepCase.emit hr hst hz' hf hc
            rwa [hs] at this
          | false =>
            rw [hs] at hrun
            change s.answered.emit _ _ = _ at hrun
            obtain ⟨hc, rfl⟩ := State.emit_next hrun
            have := StepCase.emit hr hst hz' hf hc
            rwa [hs] at this

end Sys2Proof.Machine
end

