-- ==== Sys2Proof/Tests/Slice0.lean ====
section
/-! SUPPORT. Tests of the model against 95_test_vectors.md (the vector's id stands with each), and the witnesses that the
statements' hypotheses can be met. -/

namespace Sys2Proof.Tests

open Sys2Proof.Machine

/-! ### Well-formedness: data above the POSW lines is refused, POSW-bit data is not -/

theorem test_wf_refuses_wide_data :
    (Instr.wrCtrl 0x100000000).wf Config.default = false ∧ (Instr.wrCmd 0x100000001).wf Config.default = false ∧
    (Instr.wrStatus 0x100000000).wf Config.default = false ∧ (Instr.wrNwords 0x100000000).wf Config.default = false ∧
    (Instr.wrCap 0x100000000).wf Config.default = false ∧ (Instr.wrCard 0x100000000).wf Config.default = false ∧
    (Instr.wrErrcode 0x100000000).wf Config.default = false ∧ (Instr.wrRsv7 0x100000000).wf Config.default = false := by
  decide

theorem test_wf_takes_posw_data :
    (Instr.wrCap 0xFFFFFFFF).wf Config.default = true ∧ (Instr.wrCap 0x100000000).wf Config.default64 = true ∧
    (Instr.rd 7).wf Config.default = true := by decide

theorem test_parameters_legal : Config.default.wf ∧ Config.default64.wf ∧
    ¬({ posw := .w32, nmax := 33554432 } : Config).wf ∧ ¬({ posw := .w32, nmax := 0 } : Config).wf := by decide

/-! ### Decoding: every constructor's word written out from the encoding tables (R60, R61, R67) -/

theorem test_decode_reg_words :
    decode (.reg 0b0000 0) = .ok (.rd 0) ∧ decode (.reg 0b0111 0) = .ok (.rd 7) ∧
    decode (.reg 0b1000 3) = .ok (.wrCtrl 3) ∧ decode (.reg 0b1001 1) = .ok (.wrCmd 1) ∧
    decode (.reg 0b1010 9) = .ok (.wrStatus 9) ∧ decode (.reg 0b1011 2) = .ok (.wrNwords 2) ∧
    decode (.reg 0b1100 5) = .ok (.wrCap 5) ∧ decode (.reg 0b1101 99) = .ok (.wrCard 99) ∧
    decode (.reg 0b1110 1) = .ok (.wrErrcode 1) ∧ decode (.reg 0b1111 7) = .ok (.wrRsv7 7) :=
  ⟨rfl, rfl, rfl, rfl, rfl, rfl, rfl, rfl, rfl, rfl⟩

/-- V67, V68: the upper bits of a command word are ignored. -/
theorem test_decode_cmd_words :
    decode (.cmd 0b00) = .ok .nop ∧ decode (.cmd 0xFFFFFFFC) = .ok .nop ∧ decode (.cmd 0b101) = .ok .start ∧
    decode (.cmd 0b10) = .ok .clear ∧ decode (.cmd 0b11) = .ok .cmdRsv3 :=
  ⟨rfl, rfl, rfl, rfl, rfl⟩

/-- V30 to V38. -/
theorem test_decode_uop_words :
    decode (.uop 0x44) = .ok .uFetch ∧ decode (.uop 0x4E) = .ok .uFinish ∧ decode (.uop 0x50) = .ok .uEmitTzc ∧
    decode (.uop 0x51) = .ok .uEmitLsb ∧ decode (.uop 0x52) = .ok .uTrapCap ∧ decode (.uop 0x53) = .ok .uTrapCap ∧
    decode (.uop 0x56) = .ok .uSkip ∧ decode (.uop 0b0011110) = .ok .uHold :=
  ⟨rfl, rfl, rfl, rfl, rfl, rfl, rfl, rfl⟩

/-- R69: the state codes 110 and 111 are never taken, and no row matches them. -/
theorem test_decode_refuses_by_name : decode (.uop 0x68) = .error (.noDispatchRow 0x68) ∧ decodeTableWord 8 0x68 = none :=
  ⟨rfl, rfl⟩

/-- The rows of spec/opcode_table.json that a byte tells apart (log entry 10), and the others by their own width. -/
theorem test_table_words :
    decodeTableWord 8 0x00 = some (.rd 0) ∧ decodeTableWord 8 0x08 = some (.wrCtrl 0) ∧
    decodeTableWord 8 0x0F = some (.wrRsv7 0) ∧ decodeTableWord 8 0x01 = some .start ∧ decodeTableWord 8 0x02 = some .clear ∧
    decodeTableWord 8 0x40 = some .uFetch ∧ decodeTableWord 8 0x52 = some .uTrapCap ∧ decodeTableWord 8 0x10 = some .uHold ∧
    decodeTableWord 2 0x00 = some .nop ∧ decodeTableWord 4 0x03 = some (.rd 3) ∧ decodeTableWord 7 0x00 = some .uHold := by
  decide

/-! ### Datapath units -/

/-- V1, V4, V5, V6, V8. -/
theorem test_ctz : ctz64 0 = 64 ∧ ctz64 0x28 = 3 ∧ ctz64 0x8000000000000000 = 63 ∧ ctz64 0xFFFFFFFFFFFFFFFF = 0 ∧
    ctz64 0xFFFFFFFF00000000 = 32 := by decide

/-- V1, V5, V6, V11. -/
theorem test_popcount : popcount64 0 = 0 ∧ popcount64 0x7FFFFFFFFFFFFFFF = 63 ∧ popcount64 0xFFFFFFFFFFFFFFFF = 64 ∧
    popcount64 0xA5A5A5A5A5A5A5A5 = 32 := by decide

/-- V4, V5, V6. -/
theorem test_iso : iso64 0x28 = 0x8 ∧ iso64 0x8000000000000000 = 0x8000000000000000 ∧ iso64 0xFFFFFFFFFFFFFFFF = 1 ∧
    below64 (iso64 0x8000000000000000) = 0x7FFFFFFFFFFFFFFF := by decide

/-- V1, V4: the mux, and where its arms differ. -/
theorem test_mux : idxMux false 0x28 = 3 ∧ idxMux true 0x28 = 3 ∧ clrMux false 0x28 = 8 ∧ clrMux true 0x28 = 8 ∧
    clrMux false 0 = 1 ∧ clrMux true 0 = 0 ∧ idxMux true 0 = 0 := by decide

/-- V13 to V17, V21. -/
theorem test_small_units : penc 0 = (false, 0) ∧ penc 0x8000000000000001 = (true, 0) ∧ penc 0x8000000000000000 = (true, 63) ∧
    onehot64 0 = 1 ∧ onehot64 63 = 0x8000000000000000 ∧ lzc64 1 = 63 ∧ lzc64 8 = 60 ∧ lzc64 0x8000000000000000 = 0 ∧
    lzc64 0 = 64 := by decide

/-- V18, V19, V20, and the cut to 32 bits. -/
theorem test_pos_add : posAdd Config.default 64 0 = 64 ∧ posAdd Config.default 0 63 = 63 ∧
    posAdd Config.default 2147483520 63 = 0x7FFFFFBF ∧ posAdd Config.default 0xFFFFFFFF 1 = 0 ∧
    posAdd Config.default64 0xFFFFFFFF 1 = 0x100000000 := by decide

/-! ### One step on small states -/

/-- The next state, if there is one. -/
def next? (o : Host.Outcome State Fault Refusal) : Option State :=
  match o with
  | .next t => some t
  | .fault _ => none
  | .refused _ => none

/-- One field of the next state. -/
def after {α : Type} (f : State → α) (o : Host.Outcome State Fault Refusal) : Option α := (next? o).map f

/-- A configured block that waits: two words, room for two positions, words 1 and 5 in the word memory. -/
def ready : State := { State.reset with nwords := 2, cap := 2, wmem := [(0, 1), (1, 5)] }

/-- A running block in SCAN: word 1 loaded, nothing written (V45 with a buffer of 5). -/
def scanning : State :=
  { State.reset with st := .scan, k := 1, base := 64, nwords := 2, cap := 5, bitset := 0x8000000000000028, wmem := [(0, 0), (1, 0x8000000000000028)] }

/-- A running block in FETCH at word 1. -/
def fetching : State := { ready with st := .fetch, k := 1, base := 64, cnt := 1, omem := [(0, 0)] }

/-- A block in FAULT after a CapacityError (V51). -/
def faulted : State := { State.reset with st := .fault, errcode := 1, bitset := 4, cnt := 2, cap := 2, nwords := 1 }

/-- V60, V61, V77: reads. -/
theorem test_rd : after State.hRdata (exec (.rd 0) State.reset) = some 2 ∧
    after State.hRdata (exec (.rd 2) faulted) = some 0x22 ∧ after State.hRdata (exec (.rd 5) faulted) = some 2 ∧
    after State.hRdata (exec (.rd 6) faulted) = some 1 ∧ after State.hRdata (exec (.rd 2) scanning) = some 0x0D ∧
    after State.hRdata (exec (.rd 1) faulted) = some 0 := by decide

/-- V63, V64, V76: WR.CTRL. -/
theorem test_wrCtrl : after State.ctrlWord (exec (.wrCtrl 0xFFFFFFFF) State.reset) = some 3 ∧
    after State.ctrlWord (exec (.wrCtrl 1) faulted) = some 1 ∧ after State.ctrlWord (exec (.wrCtrl 1) scanning) = some 2 := by
  decide

/-- V65, V76: WR.NWORDS. -/
theorem test_wrNwords : after State.nwords (exec (.wrNwords 0xFFFFFFFF) State.reset) = some 0xFFFFFFFF ∧
    after State.nwords (exec (.wrNwords 0) scanning) = some 2 := by decide

theorem test_wrCap : after State.cap (exec (.wrCap 64) State.reset) = some 64 ∧
    after State.cap (exec (.wrCap 64) scanning) = some 5 := by decide

/-- V66: writes to read-only registers. -/
theorem test_read_only : next? (exec (.wrCard 99) faulted) = some faulted ∧ next? (exec (.wrStatus 1) faulted) = some faulted ∧
    next? (exec (.wrErrcode 0) faulted) = some faulted ∧ next? (exec (.wrRsv7 7) faulted) = some faulted := by decide

/-- V67, V68, V76: WR.CMD. -/
theorem test_wrCmd : after State.st (exec (.wrCmd 5) State.reset) = some .fetch ∧
    next? (exec (.wrCmd 3) faulted) = some faulted ∧ next? (exec (.wrCmd 0xFFFFFFFC) faulted) = some faulted ∧
    next? (exec (.wrCmd 2) scanning) = some scanning := by decide

theorem test_nop_rsv3 : next? (exec .nop faulted) = some faulted ∧ next? (exec .cmdRsv3 faulted) = some faulted := by decide

/-- V69, V70, V74: START at the limits of the length. -/
theorem test_start : after State.st (exec .start { ready with nwords := 0x01FFFFFF }) = some .fetch ∧
    after State.errcode (exec .start { ready with nwords := 0x02000000 }) = some 2 ∧
    after State.errcode (exec .start faulted) = some 0 ∧ after State.cnt (exec .start faulted) = some 0 := by decide

/-- V72: START with POSW = 64. -/
theorem test_start64 :
    after State.st (exec .start { State.resetOf Config.default64 with nwords := 0x01FFFFFFFFFFFFFF }) = some .fetch ∧
    after State.st (exec .start { State.resetOf Config.default64 with nwords := 0x0200000000000000 }) = some .fault := by
  decide

/-- V75: CLEAR. -/
theorem test_clear : next? (exec .clear faulted) =
    some { faulted with st := .idle, errcode := 0, bitset := 0, cnt := 0 } := by decide

/-- V40. -/
theorem test_uFetch : next? (exec .uFetch fetching) = some { fetching with st := .scan, bitset := 5 } := by decide

/-- V42. -/
theorem test_uFinish : next? (exec .uFinish { fetching with k := 2 }) = some { fetching with k := 2, st := .done } := by decide

/-- V44. -/
theorem test_uSkip : next? (exec .uSkip { scanning with k := 3, base := 192, bitset := 0 }) =
    some { scanning with k := 4, base := 256, bitset := 0, st := .fetch } := by decide

/-- V45, V47. -/
theorem test_uEmitTzc : next? (exec .uEmitTzc scanning) =
      some { scanning with bitset := 0x8000000000000020, cnt := 1, omem := [(0, 67)] } ∧
    after State.omem (exec .uEmitTzc { scanning with bitset := 0x8000000000000000, cnt := 2 }) = some [(2, 127)] := by decide

/-- V46, V48, V49. -/
theorem test_uEmitLsb : next? (exec .uEmitLsb { scanning with strat := true }) =
      some { scanning with strat := true, bitset := 0x8000000000000020, cnt := 1, omem := [(0, 67)] } ∧
    after State.omem (exec .uEmitLsb { scanning with bitset := 0x8000000000000000, cnt := 2 }) = some [(2, 127)] ∧
    after State.bitset (exec .uEmitLsb { scanning with bitset := 0xFFFFFFFFFFFFFFFF }) = some 0xFFFFFFFFFFFFFFFE := by decide

/-- V51, V52. -/
theorem test_uTrapCap : next? (exec .uTrapCap { scanning with bitset := 4, cnt := 2, cap := 2 }) =
    some { scanning with bitset := 4, cnt := 2, cap := 2, st := .fault, errcode := 1 } := by decide

/-- V53. -/
theorem test_uHold : next? (exec .uHold faulted) = some faulted := by decide

/-- V34, V35, V36, V50: full, not full, full with nothing due. -/
theorem test_dispatch : ({ scanning with k := 0, bitset := 4, cnt := 2, cap := 2 } : State).dispatch = 0x52 ∧
    ({ scanning with k := 0, bitset := 4, cnt := 2, cap := 2, strat := true } : State).dispatch = 0x53 ∧
    ({ scanning with bitset := 0, cnt := 2, cap := 2 } : State).dispatch = 0x56 ∧
    ({ scanning with bitset := 4, cnt := 2, cap := 2, chk := false } : State).dispatch = 0x50 := by decide

/-- P6, step 9: the unchecked emit with index CAP stops the model. -/
theorem test_unsafe_overflow :
    exec .uEmitTzc { scanning with bitset := 4, cnt := 2, cap := 2, chk := false } = .fault .unsafeOverflow := rfl

/-- V95: a reset step wins over the START presented with it, and keeps the output memory. -/
theorem test_reset_step : next? (step { scanning with chk := false, strat := true, omem := [(0, 67)], script := [{ HostIn.wr 1 1 with rst := true }] }) =
    some { State.reset with omem := [(0, 67)], wmem := scanning.wmem } := by decide

/-- P5, steps 6 to 8: a busy step ignores a write, answers a read with the value before the step, and runs the scanner. -/
theorem test_busy_steps :
    after State.nwords (step { scanning with script := [HostIn.wr 3 0] }) = some 2 ∧
    after State.cnt (step { scanning with script := [HostIn.wr 1 2] }) = some 1 ∧
    after State.hRdata (step { scanning with script := [HostIn.rd 5] }) = some 0 ∧
    after State.cnt (step { scanning with script := [HostIn.rd 5] }) = some 1 := by decide

/-- P1, steps 4 and 5. -/
theorem test_start_steps :
    after State.st (step { ready with script := scriptStart }) = some .fetch ∧
    after State.bitset (step { ready with st := .fetch }) = some 1 := by decide

/-- The words of the opcode table run as the first instruction after reset. -/
theorem test_fetch_word :
    after State.st (step (State.reset.withFetchWord 8 0x01)) = some .fetch ∧
    after State.st (step (State.reset.withFetchWord 8 0x40)) = some .scan ∧
    after State.omem (step (State.reset.withFetchWord 8 0x50)) = some [(0, 0)] ∧
    after State.errcode (step (State.reset.withFetchWord 8 0x52)) = some 1 ∧
    (State.reset.withFetchWord 8 0x51).dispatch = 0x51 ∧ (State.reset.withFetchWord 7 0x00).dispatch = 0 := by decide

/-- R41, R48: the memory's canonical form under writes out of order. -/
theorem test_memory : Memory.write (Memory.write (Memory.write [] 5 1) 2 7) 5 9 = [(2, 7), (5, 9)] ∧
    Memory.read [(2, 7), (5, 9)] 5 = some 9 ∧ Memory.read [(2, 7), (5, 9)] 3 = none := by decide

/-! ### Witnesses: the hypotheses of each statement can be met -/

/-- A good state in SCAN, with word 1 loaded. -/
theorem witness_inv_scanning : scanning.Inv := by
  constructor <;> decide

/-- A good state in FETCH. -/
theorem witness_inv_fetching : fetching.Inv := by
  constructor <;> decide

theorem witness_datapath : (0x28#64 : Word) ≠ 0 ∧ (0x8000000000000000#64 : Word) ≠ 0 ∧ (1#64 : Word) ≠ 0 := by decide

/-- CommandTable: each of the four codes. -/
theorem witness_command_codes : (4#64).extractLsb' 0 2 = 0b00#2 ∧ (0xFFFFFFFD#64).extractLsb' 0 2 = 0b01#2 ∧
    (2#64).extractLsb' 0 2 = 0b10#2 ∧ (0xFFFFFFFF#64).extractLsb' 0 2 = 0b11#2 := by decide

/-- DecodeEncodeAgree: a vector that decodes. -/
theorem witness_uop_decodes : decode (.uop 0x7) = .ok .uHold := rfl

/-- StatusValues: each of the five states. -/
theorem witness_states : State.reset.st = .idle ∧ ({ State.reset with st := .done } : State).st = .done ∧ faulted.st = .fault ∧
    fetching.st = .fetch ∧ scanning.st = .scan := by decide

/-- PositionAdder, SkipMovesOn, NoArithmeticWraps, WordIndexRange. -/
theorem witness_good_scan : scanning.Inv ∧ scanning.st = .scan ∧ scanning.bitset ≠ 0 :=
  ⟨witness_inv_scanning, by decide, by decide⟩

theorem witness_good_fetch : fetching.Inv ∧ fetching.st = .fetch ∧ fetching.busy = true :=
  ⟨witness_inv_fetching, by decide, by decide⟩

/-- WordIndexRange, last clause: a good busy state whose step reaches DONE. -/
theorem witness_reaches_done :
    ({ State.reset with st := .fetch } : State).Inv ∧ ({ State.reset with st := .fetch } : State).busy = true ∧
    after State.st (step { State.reset with st := .fetch }) = some .done :=
  ⟨by constructor <;> decide, by decide, by decide⟩

/-- RegisterReads: a read step, a step without a read, a reset step with a read on the pins. -/
theorem witness_read_step :
    ({ scanning with script := [HostIn.rd 5] } : State).hostNow.isRead = true ∧
    ({ scanning with script := [HostIn.rd 5] } : State).hostNow.rst = false ∧
    (next? (step { scanning with script := [HostIn.rd 5] })).isSome = true ∧
    (next? (exec (.rd 5) scanning)).isSome = true ∧ scanning.hostNow.isRead = false ∧ (next? (step scanning)).isSome = true ∧
    ({ scanning with script := [{ HostIn.rd 5 with rst := true }] } : State).hostNow.rst = true := by decide

/-- WriteNwordsAndCap: data at the top of its range. -/
theorem witness_posw_data : (0xFFFFFFFF#64).toNat < 2 ^ State.reset.cfg.posw.bits := by decide

/-- WriteCmdIssues, WriteCmdCompletes, StartCommand, ClearCommand: a block that is not busy, with a legal length at the limit and one above. -/
theorem witness_not_busy : ¬(ready.st = .fetch ∨ ready.st = .scan) ∧
    ({ ready with nwords := 33554431 } : State).nwords.toNat ≤ ({ ready with nwords := 33554431 } : State).cfg.nmax ∧
    ({ ready with nwords := 33554432 } : State).cfg.nmax < ({ ready with nwords := 33554432 } : State).nwords.toNat := by decide

/-- BusyWritesIgnored. -/
theorem witness_busy_write : (scanning.st = .fetch ∨ scanning.st = .scan) ∧ (HostIn.wr 3 0).rst = false ∧
    (HostIn.wr 3 0).isWrite = true ∧
    ({ scanning with script := [HostIn.wr 3 0] } : State).script = HostIn.wr 3 0 :: [] ∧
    (next? (step { scanning with script := [HostIn.wr 3 0] })).isSome = true := by decide

/-- FetchLoadsWord, HostBreachStops: an element that is there, one that is not. -/
theorem witness_words : Memory.read fetching.wmem fetching.k.toNat = some 5 ∧
    Memory.read State.reset.wmem State.reset.k.toNat = none ∧ State.reset.cap.toNat ≤ State.reset.cnt.toNat := by decide

/-- EmitByTrailingZeros, EmitByIsolation: the last element of the buffer. -/
theorem witness_emit : ({ scanning with cnt := 4 } : State).st = .scan ∧ ({ scanning with cnt := 4 } : State).bitset ≠ 0 ∧
    ({ scanning with cnt := 4 } : State).cnt.toNat < ({ scanning with cnt := 4 } : State).cap.toNat ∧
    Memory.wf ({ scanning with cnt := 4 } : State).omem := by decide

/-- MemoryFrame: a next state of an emit and of another instruction. -/
theorem witness_memory_frame : (next? (exec .uEmitTzc scanning)).isSome = true ∧ (next? (exec .uSkip scanning)).isSome = true := by
  decide

/-- StepRunsDecoded: no access; a transaction on the pins of a waiting block. -/
theorem witness_step : scanning.hostNow.rst = false ∧ scanning.hostNow.hValid = false ∧
    ({ ready with script := scriptStart } : State).hostNow.hValid = true ∧
    ({ ready with script := scriptStart } : State).busy = false := by decide

theorem witness_step_decodes : decode (.uop scanning.dispatch) = .ok .uEmitTzc ∧
    decode (.uop ({ ready with script := scriptStart } : State).dispatch) = .ok .uHold ∧
    decode (.reg ({ ready with script := scriptStart } : State).hostNow.code
      (trunc ready.cfg ({ ready with script := scriptStart } : State).hostNow.hWdata)) = .ok (.wrCmd 1) :=
  ⟨rfl, rfl, rfl⟩

/-- StepCompletes. -/
theorem witness_duties : scanning.hostKeepsDuties ∧ fetching.hostKeepsDuties :=
  ⟨⟨by decide, by decide⟩, ⟨by decide, by decide⟩⟩

/-- ResetStep, ResetValues. -/
theorem witness_reset_pins : ({ scanning with script := [HostIn.reset] } : State).hostNow.rst = true := by decide

/-- StateGraph, OutputPort, NoWriteBeyondCap: one next state for each way ST changes. -/
theorem witness_state_graph :
    after State.st (step { scanning with script := [HostIn.reset] }) = some .idle ∧
    after State.st (step { ready with script := scriptStart }) = some .fetch ∧
    after State.st (step { ready with nwords := 33554432, script := scriptStart }) = some .fault ∧
    after State.st (step { faulted with script := scriptClear }) = some .idle ∧ after State.st (step faulted) = some .fault ∧
    after State.st (step fetching) = some .scan ∧ after State.st (step { fetching with k := 2 }) = some .done ∧
    after State.st (step scanning) = some .scan ∧ after State.st (step { scanning with bitset := 0 }) = some .fetch ∧
    after State.st (step { scanning with cap := 0 }) = some .fault := by decide

/-- DoneAndFaultHold. -/
theorem witness_hold : (faulted.st = .done ∨ faulted.st = .fault) ∧
    ({ faulted with script := [HostIn.wr 4 9] } : State).hostNow.rst = false ∧
    ({ faulted with script := [HostIn.wr 4 9] } : State).hostNow.isStart = false ∧
    ({ faulted with script := [HostIn.wr 4 9] } : State).hostNow.isClear = false ∧
    (next? (step { faulted with script := [HostIn.wr 4 9] })).isSome = true := by decide

/-- InvalidInputDecode. -/
theorem witness_invalid_start :
    ({ ready with nwords := 0x80000000, script := scriptStart } : State).busy = false ∧
    ({ ready with nwords := 0x80000000, script := scriptStart } : State).hostNow.rst = false ∧
    ({ ready with nwords := 0x80000000, script := scriptStart } : State).hostNow.isStart = true ∧
    ({ ready with nwords := 0x80000000, script := scriptStart } : State).cfg.nmax < 0x80000000 := by decide

/-- InvariantKept, WorkFalls: a good busy state with a next state. -/
theorem witness_inv_step : scanning.Inv ∧ scanning.busy = true ∧ scanning.hostNow.rst = false ∧
    (next? (step scanning)).isSome = true :=
  ⟨witness_inv_scanning, by decide, by decide, by decide⟩

/-- InvariantAtReset: the parameters at their bounds. -/
theorem witness_parameters : ({ posw := .w32, nmax := 1 } : Config).wf ∧ Config.default64.wf := by decide

/-- A launch of a given word array with a given capacity. -/
def launching (A : List Word) (cap : RegVal) (chk : Bool) : State :=
  { State.reset with nwords := BitVec.ofNat 64 A.length, cap := cap, chk := chk, wmem := (List.range A.length).zip A, script := scriptStart }

/-- ProgressFromStart, SuccessfulDecode (S7 and V80: exactly room enough, and the empty array). -/
theorem witness_success :
    (launching [1, 1] 2 true).Launch [1, 1] ∧ card [1, 1] ≤ (launching [1, 1] 2 true).cap.toNat ∧
    (launching [1, 1] 2 true).noResetFor (2 * 2 + card [1, 1] + 2) ∧
    (launching [] 0 true).Launch [] ∧ (next? (step (launching [1, 1] 2 true))).isSome = true := by
  refine ⟨⟨by decide, by decide, by decide, by decide, ?_, by decide, by decide⟩, by decide, ?_,
    ⟨by decide, by decide, by decide, by decide, ?_, by decide, by decide⟩, by decide⟩
  · show ∀ i, i < 2 → _
    decide
  · show ∀ p, p ∈ [HostIn.wr regCMD 1] → _
    decide
  · exact fun i h => absurd h (Nat.not_lt_zero i)

/-- CapacityFaultDecode, UncheckedOverflowDecode, DecodeTerminates (V87: the position that does not fit is 64). -/
theorem witness_overflow :
    (launching [1, 1] 1 true).Launch [1, 1] ∧ (launching [1, 1] 1 false).Launch [1, 1] ∧
    (launching [1, 1] 1 true).chk = true ∧ (launching [1, 1] 1 false).chk = false ∧
    (positions [1, 1])[(launching [1, 1] 1 true).cap.toNat]? = some 64 ∧
    (launching [1, 1] 1 true).noResetFor (2 * 2 + card [1, 1] + 3) := by
  refine ⟨⟨by decide, by decide, by decide, by decide, ?_, by decide, by decide⟩,
    ⟨by decide, by decide, by decide, by decide, ?_, by decide, by decide⟩, by decide, by decide, by decide, ?_⟩
  · show ∀ i, i < 2 → _
    decide
  · show ∀ i, i < 2 → _
    decide
  · show ∀ p, p ∈ [HostIn.wr regCMD 1] → _
    decide

/-- ProgressKept: the second word of `[1, 5]`, position 0 written. -/
theorem witness_progress : fetching.Inv ∧ fetching.Progress [1, 5] [] ∧ fetching.busy = true ∧
    fetching.hostNow.rst = false ∧ (next? (step fetching)).isSome = true := by
  refine ⟨witness_inv_fetching, ⟨by decide, ?_, by decide, fun h => absurd h (by decide), ?_, ?_⟩, by decide, by decide, by decide⟩
  · show ∀ i, i < 2 → _
    decide
  · show ∀ i, i < 1 → _
    decide
  · intro i h
    have h1 : 0 ≠ i := by
      have : 1 ≤ i := h
      omega
    show Memory.read [(0, 0)] i = Memory.read [] i
    simp [Memory.read, h1]

end Sys2Proof.Tests
end

