-- ==== Sys2Proof/Proofs/Scope.lean ====
section
/-! PROOFS. The statements about what a step is (R9, R36, R120, R164): raising an error, and a step as the run of the
instructions it decodes. -/

namespace Sys2Proof.Machine

/-! ### Raising an error -/

@[simp] theorem State.errBit_raise (s : State) (e : HwError) : (s.raise e).errBit = true := by
  simp [State.errBit, State.raise]

/-- Settles O34: each error's code is read off the table of R65. -/
theorem raiseWritesTwoRegisters : Obligations.RaiseWritesTwoRegisters := by
  intro s
  have hraise (e : HwError) : s.raise e = { s with errcode := e.code, st := .fault } := rfl
  exact ⟨hraise .capacityError, hraise .invalidInputError, s.errBit_raise⟩

/-! ### What the port can present -/

/-- The data lines of the port are POSW bits wide (R60). -/
theorem dataFits_trunc (c : Config) (d : RegVal) : dataFits c (trunc c d) = true :=
  decide_eq_true (trunc_lt c d)

/-- A transaction whose data fits the lines decodes to a well-formed instruction, whatever its code. -/
theorem decodeReg_wf {c : Config} {d : RegVal} (t : BitVec 4) (h : dataFits c d = true) : (decodeReg t d).wf c = true := by
  unfold decodeReg
  split
  · split <;> exact h
  · rfl

/-! ### The two parts of a step -/

theorem hostPhase_of_noAccess {s : State} (h : s.hostNow.hValid = false) : hostPhase s = .next s.tick := by
  simp [hostPhase, State.hostInstr, h]

theorem hostPhase_of_access {s : State} (h : s.hostNow.hValid = true) :
    hostPhase s = exec (decodeReg s.hostNow.code (trunc s.cfg s.hostNow.hWdata)) s.tick := by
  simp [hostPhase, State.hostInstr, h]

/-- The micro-operation that the dispatch vector decodes to is the one that the state selects. -/
theorem State.selected_of_decode {s : State} {u : Instr} (h : decode (.uop s.dispatch) = .ok u) :
    selected s.st s.endPred s.zeroPred s.fullPred s.strat = u :=
  Except.ok.inj (s.microOp_eq.symm.trans h)

/-- While the block is not busy the scanner holds (R106). -/
theorem State.selected_of_notBusy {s : State} (h : s.busy = false) :
    selected s.st s.endPred s.zeroPred s.fullPred s.strat = .uHold := by
  rcases s.notBusy_iff.1 h with hst | hst | hst <;> rw [hst] <;> rfl

/-- A scanner that holds adds nothing to the host's access. -/
theorem andThen_hold (o : Host.Outcome State Fault Refusal) : andThen o (exec .uHold) = o := by
  cases o <;> rfl

/-- Settles O36: the step is the host's part and then the selected micro-operation (`step_run`), split by whether the pins
present an access; a block that is not busy selects U.HOLD. -/
theorem stepRunsDecoded : Obligations.StepRunsDecoded := by
  intro s u hrst hu
  have hsel := State.selected_of_decode hu
  have hstep : step s = andThen (hostPhase s) (exec u) := hsel ▸ step_run hrst
  constructor
  · intro hno
    rw [hstep, hostPhase_of_noAccess hno]
    rfl
  · intro i haccess hi
    obtain rfl : decodeReg s.hostNow.code (trunc s.cfg s.hostNow.hWdata) = i := Except.ok.inj hi
    rw [hostPhase_of_access haccess] at hstep
    refine ⟨decodeReg_wf _ (dataFits_trunc _ _), hstep, fun hb => ?_⟩
    obtain rfl : u = .uHold := hsel.symm.trans (State.selected_of_notBusy hb)
    exact hstep.trans (andThen_hold _)

end Sys2Proof.Machine
end

/-! PROOFS. The statements about the state: its values after reset (R31), the invariant that every step keeps (R15, R144 to
R148, R165), and the output memory that no step reads (R25, R41). -/

namespace Sys2Proof.Machine

/-! ### The bit that an emit clears -/

/-- A nonzero word has a set bit for the search to stop at. -/
theorem lowestSetFrom_lt {x : Word} (hx : x ≠ 0) : lowestSetFrom 64 0 x < 64 := by
  by_contra hge
  refine hx (BitVec.eq_of_getLsbD_eq fun i hi => ?_)
  exact (lowestSetFrom_below (fuel := 64) (Nat.zero_le i) (by omega)).trans BitVec.getLsbD_zero.symm

/-- `iso64` of a nonzero word holds exactly the bit that `ctz64` counts up to (R83). -/
theorem getLsbD_iso64 {x : Word} (hx : x ≠ 0) (i : Nat) :
    (iso64 x).getLsbD i = decide (i = lowestSetFrom 64 0 x) := by
  have hlt := lowestSetFrom_lt hx
  have hset : x.getLsbD (lowestSetFrom 64 0 x) = true := lowestSetFrom_set hlt
  have hbelow : ∀ j, j < lowestSetFrom 64 0 x → x.getLsbD j = false := fun j => lowestSetFrom_below (Nat.zero_le j)
  rw [iso64, neg64, BitVec.getLsbD_and, BitVec.getLsbD_neg]
  rcases Nat.lt_trichotomy i (lowestSetFrom 64 0 x) with h | rfl | h
  · simp [hbelow i h, Nat.ne_of_lt h]
  · have hnone : ¬∃ j, j < lowestSetFrom 64 0 x ∧ x.getLsbD j = true := fun ⟨j, hj, hone⟩ => by
      simp [hbelow j hj] at hone
    simp [hset, hlt, hnone]
  · have hsome : ∃ j, j < i ∧ x.getLsbD j = true := ⟨_, h, hset⟩
    cases hi : x.getLsbD i with
    | false => simp [Nat.ne_of_gt h]
    | true => simp [BitVec.lt_of_getLsbD hi, hsome, Nat.ne_of_gt h]

/-- The mask of the trailing-zero strategy holds exactly the bit that `ctz64` counts up to (R82). -/
theorem getLsbD_onehot64_ctz64 {x : Word} (hx : x ≠ 0) (i : Nat) :
    (onehot64 ((ctz64 x).extractLsb' 0 6)).getLsbD i = decide (i = lowestSetFrom 64 0 x) := by
  have hlt := lowestSetFrom_lt hx
  have hidx : ((ctz64 x).extractLsb' 0 6).toNat = lowestSetFrom 64 0 x := by
    rw [BitVec.extractLsb'_toNat, ctz64_toNat, Nat.shiftRight_zero, Nat.mod_eq_of_lt hlt]
  rw [onehot64, hidx, ← BitVec.twoPow_eq, BitVec.getLsbD_twoPow]
  simp [hlt, eq_comm]

/-- Under either strategy the clear mask of a nonzero word is its lowest set bit (R87, R89). -/
theorem getLsbD_clrMux {x : Word} (strat : Bool) (hx : x ≠ 0) (i : Nat) :
    (clrMux strat x).getLsbD i = decide (i = lowestSetFrom 64 0 x) := by
  cases strat with
  | false => exact getLsbD_onehot64_ctz64 hx i
  | true => exact getLsbD_iso64 hx i

/-- Clearing one set bit takes one off every count that reaches it. -/
theorem onesBelow_of_clear {x y : Word} {b : Nat} (hset : x.getLsbD b = true)
    (hy : ∀ i, y.getLsbD i = (x.getLsbD i && decide (i ≠ b))) (n : Nat) :
    onesBelow n y + (decide (b < n)).toNat = onesBelow n x := by
  induction n with
  | zero => rfl
  | succ n ih =>
    simp only [onesBelow, hy n, ← ih]
    rcases Nat.lt_trichotomy n b with h | rfl | h
    · simp [Nat.ne_of_lt h, Nat.not_lt.2 h.le, Nat.not_lt.2 (Nat.succ_le_of_lt h)]
    · simp [hset]
    · simp [Nat.ne_of_gt h, h, Nat.lt_succ_of_lt h]
      omega

/-- An emit takes exactly one bit out of BITSET (R85, R103, R104). -/
theorem popcount64_xor_clrMux {x : Word} (strat : Bool) (hx : x ≠ 0) :
    (popcount64 (x ^^^ clrMux strat x)).toNat + 1 = (popcount64 x).toNat := by
  have hlt := lowestSetFrom_lt hx
  have hset : x.getLsbD (lowestSetFrom 64 0 x) = true := lowestSetFrom_set hlt
  have hclear : ∀ i, (x ^^^ clrMux strat x).getLsbD i = (x.getLsbD i && decide (i ≠ lowestSetFrom 64 0 x)) := fun i => by
    rw [BitVec.getLsbD_xor, getLsbD_clrMux strat hx]
    by_cases h : i = lowestSetFrom 64 0 x
    · simp [h, hset]
    · simp [h]
  rw [popcount64_toNat, popcount64_toNat, ← onesBelow_of_clear hset hclear 64]
  simp [hlt]

/-! ### The part of the invariant that does not speak of the scanner -/

/-- The parameters are legal, what the host wrote or reads fits POSW bits, and both memories are in canonical form. -/
structure State.Stored (s : State) : Prop where
  paramsLegal : s.cfg.wf
  nwordsFits : s.fits s.nwords
  capFits : s.fits s.cap
  hRdataFits : s.fits s.hRdata
  wmemCanonical : Memory.wf s.wmem
  omemCanonical : Memory.wf s.omem
  omemFits : ∀ e, e ∈ s.omem → e.1 < 2 ^ s.cfg.posw.bits ∧ s.fits e.2

theorem State.Inv.stored {s : State} (h : s.Inv) : s.Stored := { h with }

theorem State.fits_zero (s : State) : s.fits 0 := Nat.two_pow_pos _

/-- The registers of a block right after reset are stored values (R31, R191). -/
theorem State.stored_resetOf {c : Config} (hc : c.wf) : (State.resetOf c).Stored where
  paramsLegal := hc
  nwordsFits := State.fits_zero (State.resetOf c)
  capFits := State.fits_zero (State.resetOf c)
  hRdataFits := State.fits_zero (State.resetOf c)
  wmemCanonical := List.Pairwise.nil
  omemCanonical := List.Pairwise.nil
  omemFits := nofun

/-- R6's bound on NMAX keeps every position and every count, and one word more, below `2^POSW` (R147). -/
theorem State.Inv.positions_lt {s : State} (h : s.Inv) : 64 * s.cfg.nmax + 64 < 2 ^ s.cfg.posw.bits := by
  obtain ⟨_, hmax⟩ := h.paramsLegal
  revert hmax
  unfold Config.nmaxBound
  cases s.cfg.posw <;> simp only [Posw.bits] <;> omega

/-! ### What the host can do to the invariant -/

theorem State.Inv.setHRdata {s : State} (h : s.Inv) {v : RegVal} (hv : s.fits v) : (s.setHRdata v).Inv :=
  { h with hRdataFits := hv }

theorem State.Inv.tick {s : State} (h : s.Inv) : s.tick.Inv :=
  { h with hRdataFits := s.fits_zero }

theorem State.Inv.fits_readReg {s : State} (h : s.Inv) (a : BitVec 3) : s.fits (s.readReg a) :=
  State.readReg_lt a h.nwordsFits h.capFits h.cntFits

theorem State.Inv.fits_answer {s : State} (h : s.Inv) : s.fits s.answer := by
  unfold State.answer
  split
  · exact h.fits_readReg _
  · exact s.fits_zero

theorem State.Inv.answered {s : State} (h : s.Inv) : s.answered.Inv := h.tick.setHRdata h.fits_answer

/-- Outside FETCH and SCAN nothing the invariant says of a decode applies. -/
theorem State.ne_of_notBusy {s : State} (hb : s.busy = false) : s.st ≠ .fetch ∧ s.st ≠ .scan := by
  simpa [State.busy] using hb

theorem State.Inv.setCtrl {s : State} (h : s.Inv) (hb : s.busy = false) (strat chk : Bool) : (s.setCtrl strat chk).Inv :=
  { h with checked := fun hb' => absurd (hb.symm.trans hb') nofun }

theorem State.Inv.setNwords {s : State} (h : s.Inv) (hb : s.busy = false) {v : RegVal} (hv : s.fits v) :
    (s.setNwords v).Inv :=
  { h with
    nwordsFits := hv
    busyLength := fun hb' => absurd (hb.symm.trans hb') nofun
    fetchRange := fun hst => absurd hst (State.ne_of_notBusy hb).1
    scanRange := fun hst => absurd hst (State.ne_of_notBusy hb).2 }

theorem State.Inv.setCap {s : State} (h : s.Inv) (hb : s.busy = false) {v : RegVal} (hv : s.fits v) :
    (s.setCap v).Inv :=
  { h with
    capFits := hv
    checked := fun hb' => absurd (hb.symm.trans hb') nofun }

/-- Zeroing the scanner registers gives the invariant whatever they held, in each state that START, CLEAR or reset leads to:
CLEAR, a legal START and an illegal one differ in ST and ERRCODE alone (R128, R129, R190). -/
theorem State.Stored.zeroScan {s : State} (h : s.Stored) {st : St} {e : BitVec 2} (hst : st ≠ .scan)
    (hiff : e ≠ 0 ↔ st = .fault) (hcode : e = 0 ∨ e = 2) (hlen : st = .fetch → s.nwords.toNat ≤ s.cfg.nmax) :
    ((s.zeroScan.setErrcode e).setSt st).Inv :=
  { h with
    kFits := s.fits_zero
    baseFits := s.fits_zero
    cntFits := s.fits_zero
    errcodeIff := hiff
    errcodeLegal := by rcases hcode with rfl | rfl <;> simp
    baseIs := rfl
    busyLength := fun hb => hlen (((State.busy_iff _).1 hb).resolve_right hst)
    fetchRange := fun _ => Nat.zero_le _
    scanRange := fun h => absurd h hst
    kMax := Nat.zero_le _
    bitsetZero := fun _ => rfl
    cntBetween := fun _ => Nat.zero_le _
    cntInside := fun h => absurd h hst
    cntMax := Nat.zero_le _
    checked := fun _ _ => Nat.zero_le _
    idleZero := fun _ => ⟨rfl, rfl⟩
    capacityDue := by rcases hcode with rfl | rfl <;> simp
    invalidZero := fun _ => ⟨rfl, rfl, rfl⟩ }

theorem State.Stored.acknowledge {s : State} (h : s.Stored) : s.acknowledge.Inv :=
  h.zeroScan nofun (by simp) (.inl rfl) nofun

theorem State.Stored.beginDecode {s : State} (h : s.Stored) (hn : s.nwords.toNat ≤ s.cfg.nmax) : s.beginDecode.Inv :=
  h.zeroScan nofun (by simp) (.inl rfl) fun _ => hn

theorem State.Stored.raiseInvalidInput {s : State} (h : s.Stored) : (s.zeroScan.raise .invalidInputError).Inv :=
  h.zeroScan nofun (by simp [HwError.code]) (.inr rfl) nofun

theorem State.Inv.applyReset {s : State} (h : s.Inv) : s.applyReset.Inv :=
  ((h.stored.acknowledge.setCtrl rfl false true).setNwords rfl s.fits_zero).setCap rfl s.fits_zero

/-- Whatever the host does in a step, its part of the step keeps the invariant. -/
theorem HostEffect.inv {s t : State} (h : s.Inv) (he : HostEffect s t) : t.Inv := by
  cases he with
  | quiet => exact h.tick
  | read => exact h.tick.setHRdata (h.fits_readReg _)
  | ctrl d hb => exact h.tick.setCtrl hb _ _
  | nwords d hb => exact h.tick.setNwords hb (trunc_lt s.cfg d)
  | cap d hb => exact h.tick.setCap hb (trunc_lt s.cfg d)
  | begin _ _ _ _ hn => exact h.tick.stored.beginDecode hn
  | invalid => exact h.tick.stored.raiseInvalidInput
  | clear => exact h.tick.stored.acknowledge

/-! ### What the scanner can do to the invariant -/

theorem State.Inv.errcode_eq_zero {s : State} (h : s.Inv) (hst : s.st ≠ .fault) : s.errcode = 0 :=
  not_not.1 (mt h.errcodeIff.1 hst)

/-- A busy state stays good under every move of the scanner to FETCH, SCAN or DONE whose new K, BASE, BITSET and CNT keep
within the ranges of R144 to R148; all micro-operations but U.TRAP.CAP and U.HOLD are such moves. -/
theorem State.Inv.moveScan {s : State} (h : s.Inv) (hb : s.busy = true) {k base cnt : RegVal} {bits : Word} {st : St}
    (hst : st = .fetch ∨ st = .done ∨ st = .scan) (hk : k.toNat ≤ s.nwords.toNat) (hbase : base.toNat = 64 * k.toNat)
    (hbetween : st ≠ .scan → bits = 0 ∧ cnt.toNat ≤ 64 * k.toNat)
    (hinside : st = .scan → k.toNat < s.nwords.toNat ∧ cnt.toNat + (popcount64 bits).toNat ≤ 64 * k.toNat + 64)
    (hcap : s.chk = true → cnt.toNat ≤ s.cap.toNat) : ((s.setScan k base bits cnt).setSt st).Inv := by
  have hlen := h.busyLength hb
  have hbound := h.positions_lt
  have herr : s.errcode = 0 := h.errcode_eq_zero fun hf => by simp [State.busy, hf] at hb
  have hidle : st ≠ .idle := by rcases hst with rfl | rfl | rfl <;> nofun
  have hfault : st ≠ .fault := by rcases hst with rfl | rfl | rfl <;> nofun
  have hcnt : cnt.toNat ≤ 64 * s.cfg.nmax := by
    by_cases hs : st = .scan
    · obtain ⟨_, _⟩ := hinside hs
      omega
    · obtain ⟨_, _⟩ := hbetween hs
      omega
  have hoff : st = .idle ∨ st = .done ∨ st = .fetch → st ≠ .scan := by rintro (rfl | rfl | rfl) <;> nofun
  exact
  { h with
    kFits := show k.toNat < 2 ^ s.cfg.posw.bits by omega
    baseFits := show base.toNat < 2 ^ s.cfg.posw.bits by omega
    cntFits := show cnt.toNat < 2 ^ s.cfg.posw.bits by omega
    errcodeIff := iff_of_false (not_not.2 herr) hfault
    baseIs := hbase
    busyLength := fun _ => hlen
    fetchRange := fun _ => hk
    scanRange := fun hs => (hinside hs).1
    kMax := hk.trans hlen
    bitsetZero := fun hs => (hbetween (hoff hs)).1
    cntBetween := fun hs => (hbetween (hoff hs)).2
    cntInside := fun hs => (hinside hs).2
    cntMax := hcnt
    checked := fun _ => hcap
    idleZero := fun hs => absurd hs hidle
    capacityDue := fun he => absurd (herr.symm.trans he) (by decide)
    invalidZero := fun he => absurd (herr.symm.trans he) (by decide) }

theorem State.Inv.checked_of_st {s : State} (h : s.Inv) (hst : s.st = .fetch ∨ s.st = .scan) :
    s.chk = true → s.cnt.toNat ≤ s.cap.toNat :=
  h.checked (s.busy_iff.2 hst)

/-- U.FETCH (R100). -/
theorem State.Inv.fetchWord {s : State} (h : s.Inv) (hst : s.st = .fetch) (hk : s.k.toNat < s.nwords.toNat) (w : Word) :
    ((s.setScan s.k s.base w s.cnt).setSt .scan).Inv := by
  have hcnt := h.cntBetween (.inr (.inr hst))
  have hones : (popcount64 w).toNat ≤ 64 := popcount64_toNat w ▸ onesBelow_le 64 w
  exact h.moveScan (s.busy_iff.2 (.inl hst)) (.inr (.inr rfl)) hk.le h.baseIs (absurd rfl) (fun _ => ⟨hk, by omega⟩)
    (h.checked_of_st (.inl hst))

/-- U.FINISH (R101). -/
theorem State.Inv.finish {s : State} (h : s.Inv) (hst : s.st = .fetch) : (s.setSt .done).Inv :=
  h.moveScan (s.busy_iff.2 (.inl hst)) (.inr (.inl rfl)) (h.fetchRange hst) h.baseIs
    (fun _ => ⟨h.bitsetZero (.inr (.inr hst)), h.cntBetween (.inr (.inr hst))⟩) nofun (h.checked_of_st (.inl hst))

/-- U.SKIP (R102): neither sum wraps, because `K < NWORDS`. -/
theorem State.Inv.skipWord {s : State} (h : s.Inv) (hst : s.st = .scan) (hz : s.bitset = 0) :
    ((s.setScan (addPosw s.cfg s.k 1) (addPosw s.cfg s.base 64) s.bitset s.cnt).setSt .fetch).Inv := by
  have hrange := h.scanRange hst
  have hlen := h.busyLength (s.busy_iff.2 (.inr hst))
  have hbound := h.positions_lt
  have hbase := h.baseIs
  have hk1 : (addPosw s.cfg s.k 1).toNat = s.k.toNat + 1 :=
    addPosw_toNat_of_lt (show s.k.toNat + 1 < 2 ^ s.cfg.posw.bits by omega)
  have hb64 : (addPosw s.cfg s.base 64).toNat = s.base.toNat + 64 :=
    addPosw_toNat_of_lt (show s.base.toNat + 64 < 2 ^ s.cfg.posw.bits by omega)
  have hcnt := h.cntInside hst
  exact h.moveScan (s.busy_iff.2 (.inr hst)) (.inl rfl) (by omega) (by omega) (fun _ => ⟨hz, by omega⟩) nofun
    (h.checked_of_st (.inr hst))

/-- The position adder drives POSW lines (R90). -/
theorem posAdd_lt (c : Config) (base : RegVal) (idx : BitIdx) : (posAdd c base idx).toNat < 2 ^ c.posw.bits :=
  trunc_lt c _

/-- A write of a POSW-bit value at a POSW-bit index keeps the output memory as the invariant asks (R41). -/
theorem State.Inv.writeOmem {s : State} (h : s.Inv) {i v : RegVal} (hi : s.fits i) (hv : s.fits v) :
    (s.setOmem (Memory.write s.omem i.toNat v)).Inv :=
  { h with
    omemCanonical := Memory.write_wf h.omemCanonical _ _
    omemFits := fun e he => by
      rcases Memory.mem_write he with rfl | he
      · exact ⟨hi, hv⟩
      · exact h.omemFits e he }

theorem State.setSt_eq_self {s : State} {st : St} (h : s.st = st) : s.setSt st = s := by
  subst h
  rfl

/-- The registers of an emit (R103, R104): CNT takes one more and BITSET loses one set bit, so their sum stays. -/
theorem State.Inv.takeBit {s : State} (h : s.Inv) (hst : s.st = .scan) (hz : s.bitset ≠ 0) (hc : s.cnt.toNat < s.cap.toNat)
    (strat : Bool) :
    (s.setScan s.k s.base (s.bitset ^^^ clrMux strat s.bitset) (addPosw s.cfg s.cnt 1)).Inv := by
  have hrange := h.scanRange hst
  have hlen := h.busyLength (s.busy_iff.2 (.inr hst))
  have hbound := h.positions_lt
  have hcnt := h.cntInside hst
  have hbit := popcount64_xor_clrMux strat hz
  have hcnt1 : (addPosw s.cfg s.cnt 1).toNat = s.cnt.toNat + 1 :=
    addPosw_toNat_of_lt (show s.cnt.toNat + 1 < 2 ^ s.cfg.posw.bits by omega)
  have hinside : (addPosw s.cfg s.cnt 1).toNat + (popcount64 (s.bitset ^^^ clrMux strat s.bitset)).toNat ≤
      64 * s.k.toNat + 64 := by omega
  have hmove := h.moveScan (s.busy_iff.2 (.inr hst)) (.inr (.inr rfl)) hrange.le h.baseIs (absurd rfl)
    (fun _ => ⟨hrange, hinside⟩) (fun _ => by omega)
  rwa [State.setSt_eq_self (by exact hst)] at hmove

/-- U.EMIT.TZC and U.EMIT.LSB (R103, R104). -/
theorem State.Inv.emitPosition {s : State} (h : s.Inv) (hst : s.st = .scan) (hz : s.bitset ≠ 0)
    (hc : s.cnt.toNat < s.cap.toNat) (strat : Bool) :
    ((s.setOmem (Memory.write s.omem s.cnt.toNat (posAdd s.cfg s.base (idxMux strat s.bitset)))).setScan s.k s.base
      (s.bitset ^^^ clrMux strat s.bitset) (addPosw s.cfg s.cnt 1)).Inv :=
  (h.takeBit hst hz hc strat).writeOmem (i := s.cnt) h.cntFits (posAdd_lt s.cfg s.base (idxMux strat s.bitset))

/-- U.TRAP.CAP (R105): the position that is due stays in BITSET (R165). -/
theorem State.Inv.trap {s : State} (h : s.Inv) (hz : s.bitset ≠ 0) : (s.raise .capacityError).Inv :=
  { h with
    errcodeIff := iff_of_true nofun rfl
    errcodeLegal := nofun
    busyLength := nofun
    fetchRange := nofun
    scanRange := nofun
    bitsetZero := by rintro (h | h | h) <;> cases h
    cntBetween := by rintro (h | h | h) <;> cases h
    cntInside := nofun
    checked := nofun
    idleZero := nofun
    capacityDue := fun _ => hz
    invalidZero := nofun }

/-! ### The statements about the registers after reset and about the invariant -/

/-- Settles O45: every next state is one of the cases of `step_cases`, and each case keeps the invariant by the rule of its
own operation. -/
theorem invariantKept : Obligations.InvariantKept := by
  intro s t h hstep
  cases step_cases hstep with
  | reset => exact h.tick.applyReset
  | host t _ _ he => exact he.inv h
  | fetch w _ hst hk => exact h.answered.fetchWord hst hk w
  | finish _ hst => exact h.answered.finish hst
  | skip _ hst hz => exact h.answered.skipWord hst hz
  | emit _ hst hz _ hc =>
    simpa using h.answered.emitPosition hst (by simpa using hz) (by simpa using hc) s.strat
  | trap _ _ hz => exact h.answered.trap hz

/-- Settles O46: a CLEAR leaves the reset state as it is, and what a CLEAR leaves has the invariant. -/
theorem invariantAtReset : Obligations.InvariantAtReset :=
  have hreset (c : Config) (hc : c.wf) : (State.resetOf c).Inv := (State.stored_resetOf hc).acknowledge
  ⟨hreset Config.default (by decide), hreset⟩

/-- Settles O39: a reset step is `State.applyReset`, whose fields are read off its laws. -/
theorem resetValues : Obligations.ResetValues := by
  refine ⟨?_, fun s hr => ⟨s.tick.applyReset, step_reset hr, ?_⟩⟩
  · rintro c r rfl
    simp [State.resetOf]
  · simp

/-! ### The output memory is never read -/

/-- A part of the machine's work does not depend on the output memory: with another content there, it gives the same
outcome but for that memory. -/
def OmemBlind (f : State → Host.Outcome State Fault Refusal) : Prop :=
  ∀ (s : State) (m : Memory), outcomeExceptOmem (f (s.setOmem m)) = outcomeExceptOmem (f s)

/-- An update that commutes with putting the output memory aside is blind to it. -/
theorem OmemBlind.next {f : State → State} (h : ∀ s m, (f (s.setOmem m)).exceptOmem = (f s).exceptOmem) :
    OmemBlind fun s => .next (f s) :=
  fun s m => congrArg Host.Outcome.next (h s m)

/-- Before a blind part of the work the output memory may be put aside. -/
theorem OmemBlind.andThen_exceptOmem {g : State → Host.Outcome State Fault Refusal} (hg : OmemBlind g)
    (o : Host.Outcome State Fault Refusal) :
    outcomeExceptOmem (andThen (outcomeExceptOmem o) g) = outcomeExceptOmem (andThen o g) := by
  cases o with
  | next t => exact hg t []
  | fault r => rfl
  | refused r => rfl

/-- One blind part of the work after another is blind. -/
theorem OmemBlind.andThen {f g : State → Host.Outcome State Fault Refusal} (hf : OmemBlind f) (hg : OmemBlind g) :
    OmemBlind fun s => andThen (f s) g := fun s m =>
  calc outcomeExceptOmem (Machine.andThen (f (s.setOmem m)) g)
      = outcomeExceptOmem (Machine.andThen (outcomeExceptOmem (f (s.setOmem m))) g) := (hg.andThen_exceptOmem _).symm
    _ = outcomeExceptOmem (Machine.andThen (outcomeExceptOmem (f s)) g) := by rw [hf s m]
    _ = outcomeExceptOmem (Machine.andThen (f s) g) := hg.andThen_exceptOmem _

/-- A guarded host write is blind where the write is (R131). -/
theorem OmemBlind.unlessBusy {f : State → State} (h : ∀ s m, (f (s.setOmem m)).exceptOmem = (f s).exceptOmem) :
    OmemBlind fun s => .next (s.unlessBusy (f s)) :=
  .next fun s m => by
    show (if s.busy then s.setOmem m else f (s.setOmem m)).exceptOmem = (if s.busy then s else f s).exceptOmem
    cases s.busy
    · exact h s m
    · rfl

theorem omemBlind_start : OmemBlind execStart :=
  .unlessBusy fun s m => by
    show (if s.cfg.nmax < s.nwords.toNat then (s.setOmem m).zeroScan.raise .invalidInputError
      else (s.setOmem m).beginDecode).exceptOmem = _
    split <;> rfl

theorem omemBlind_wrCmd (d : RegVal) : OmemBlind (execWrCmd d) := fun s m => by
  show outcomeExceptOmem (if s.busy then .next (s.setOmem m) else _) = outcomeExceptOmem (if s.busy then .next s else _)
  cases s.busy with
  | true => rfl
  | false =>
    have hcases : ∀ c : BitVec 2, c = 0 ∨ c = 1 ∨ c = 2 ∨ c = 3 := by decide
    rcases hcases (cmdCode d) with h | h | h | h <;> rw [h]
    · rfl
    · exact omemBlind_start s m
    · exact OmemBlind.unlessBusy (f := State.acknowledge) (fun _ _ => rfl) s m
    · rfl

theorem execUFetch_of_some {s : State} {w : Word} (h : s.memRead s.k = some w) :
    execUFetch s = .next ((s.setScan s.k s.base w s.cnt).setSt .scan) := by
  simp [execUFetch, h]

theorem execUFetch_of_none {s : State} (h : s.memRead s.k = none) : execUFetch s = .fault .wordArrayTooShort := by
  simp [execUFetch, h]

/-- A fetch reads the word memory alone (R40). -/
theorem omemBlind_uFetch : OmemBlind execUFetch := fun s m => by
  cases hw : s.memRead s.k with
  | some w => rw [execUFetch_of_some (s := s.setOmem m) hw, execUFetch_of_some hw]; rfl
  | none => rw [execUFetch_of_none (s := s.setOmem m) hw, execUFetch_of_none hw]

/-- Whether an emit stops, and which registers it leaves, is settled by CNT, CAP and BITSET; what it writes goes to the output
memory alone (R41, R154). -/
theorem omemBlind_emit (idx : State → BitIdx) (clr : State → Word) (hidx : ∀ s m, idx (State.setOmem s m) = idx s)
    (hclr : ∀ s m, clr (State.setOmem s m) = clr s) : OmemBlind fun s => s.emit (idx s) (clr s) := fun s m => by
  show outcomeExceptOmem ((s.setOmem m).emit (idx (s.setOmem m)) (clr (s.setOmem m))) =
    outcomeExceptOmem (s.emit (idx s) (clr s))
  rw [hidx, hclr]
  by_cases hc : s.cnt.toNat < s.cap.toNat
  · rw [State.emit_of_lt (s := s.setOmem m) hc, State.emit_of_lt hc]
    rfl
  · rw [State.emit_of_ge (s := s.setOmem m) (Nat.le_of_not_lt hc), State.emit_of_ge (Nat.le_of_not_lt hc)]

/-- No instruction reads the output memory (R25). -/
theorem omemBlind_exec (i : Instr) : OmemBlind (exec i) := by
  cases i with
  | rd a => exact .next fun _ _ => rfl
  | wrCtrl d => exact .unlessBusy fun _ _ => rfl
  | wrCmd d => exact omemBlind_wrCmd d
  | wrStatus d => exact .next fun _ _ => rfl
  | wrNwords d => exact .unlessBusy fun _ _ => rfl
  | wrCap d => exact .unlessBusy fun _ _ => rfl
  | wrCard d => exact .next fun _ _ => rfl
  | wrErrcode d => exact .next fun _ _ => rfl
  | wrRsv7 d => exact .next fun _ _ => rfl
  | nop => exact .next fun _ _ => rfl
  | start => exact omemBlind_start
  | clear => exact .unlessBusy fun _ _ => rfl
  | cmdRsv3 => exact .next fun _ _ => rfl
  | uFetch => exact omemBlind_uFetch
  | uFinish => exact .next fun _ _ => rfl
  | uSkip => exact .next fun _ _ => rfl
  | uEmitTzc => exact omemBlind_emit _ _ (fun _ _ => rfl) (fun _ _ => rfl)
  | uEmitLsb => exact omemBlind_emit _ _ (fun _ _ => rfl) (fun _ _ => rfl)
  | uTrapCap => exact .next fun _ _ => rfl
  | uHold => exact .next fun _ _ => rfl

/-- The pins do not depend on the output memory, and neither does the access they present. -/
theorem omemBlind_hostPhase : OmemBlind hostPhase := fun s m => by
  cases hv : s.hostNow.hValid with
  | false => rw [hostPhase_of_noAccess (s := s.setOmem m) hv, hostPhase_of_noAccess hv]; rfl
  | true =>
    rw [hostPhase_of_access (s := s.setOmem m) hv, hostPhase_of_access hv]
    exact omemBlind_exec _ s.tick m

/-- Reset and the selection of the micro-operation do not depend on the output memory either. -/
theorem omemBlind_step : OmemBlind step := fun s m => by
  cases hr : s.hostNow.rst with
  | true => rw [step_reset (s := s.setOmem m) hr, step_reset hr]; rfl
  | false =>
    rw [step_run (s := s.setOmem m) hr, step_run hr]
    exact omemBlind_hostPhase.andThen (omemBlind_exec _) s m

/-- A run is a step and then the rest of the run. -/
theorem runSteps_succ (n : Nat) (s : State) : runSteps (n + 1) s = andThen (step s) (runSteps n) := by
  refine (Host.Core.run.eq_2 Sys2Proof.core s n).trans ?_
  show _ = andThen (core.step s) (runSteps n)
  cases core.step s <;> rfl

theorem omemBlind_runSteps (n : Nat) : OmemBlind (runSteps n) := by
  induction n with
  | zero => exact .next fun _ _ => rfl
  | succ n ih =>
    have hrun : runSteps (n + 1) = fun s => andThen (step s) (runSteps n) := funext (runSteps_succ n)
    exact hrun ▸ omemBlind_step.andThen ih

/-- Settles O59: a step is blind to the output memory, and so is a run, by induction on its length. -/
theorem outputMemoryNeverRead : Obligations.OutputMemoryNeverRead := omemBlind_runSteps

end Sys2Proof.Machine

/-! PROOFS. The statements about the memories: which of them an instruction can write, and where (R40, R41, R48), and the
output write port that shows every write of a step (R53). -/

namespace Sys2Proof.Machine

/-! ### The instructions that write no memory -/

/-- A part of the machine's work writes neither memory: where it completes, both are as before. -/
def KeepsMemories (f : State → Host.Outcome State Fault Refusal) : Prop :=
  ∀ s t : State, f s = .next t → t.wmem = s.wmem ∧ t.omem = s.omem

/-- An update of registers alone writes neither memory. -/
theorem KeepsMemories.next {f : State → State} (h : ∀ s, (f s).wmem = s.wmem ∧ (f s).omem = s.omem) :
    KeepsMemories fun s => .next (f s) := by
  rintro s _ ⟨⟩
  exact h s

/-- A guarded host write keeps the memories where the write does (R131). -/
theorem KeepsMemories.unlessBusy {f : State → State} (h : ∀ s, (f s).wmem = s.wmem ∧ (f s).omem = s.omem) :
    KeepsMemories fun s => .next (s.unlessBusy (f s)) :=
  .next fun s => by
    cases hb : s.busy with
    | true => rw [State.unlessBusy_busy _ hb]; exact ⟨rfl, rfl⟩
    | false => rw [State.unlessBusy_notBusy _ hb]; exact h s

/-- START zeroes registers, whether it begins a decode or raises the error. -/
theorem keepsMemories_start : KeepsMemories execStart :=
  .unlessBusy fun s => by split <;> exact ⟨rfl, rfl⟩

/-- WR.CMD keeps the memories because each of the four commands does. -/
theorem keepsMemories_wrCmd (d : RegVal) : KeepsMemories (execWrCmd d) := fun s t h => by
  unfold execWrCmd at h
  split at h
  · cases h
    exact ⟨rfl, rfl⟩
  · split at h
    · cases h
      exact ⟨rfl, rfl⟩
    · exact keepsMemories_start s t h
    · exact KeepsMemories.unlessBusy (f := State.acknowledge) (fun _ => ⟨rfl, rfl⟩) s t h
    · cases h
      exact ⟨rfl, rfl⟩

/-- A fetch reads the word memory and writes registers alone (R40). -/
theorem keepsMemories_uFetch : KeepsMemories execUFetch := fun s t h => by
  cases hw : s.memRead s.k with
  | some w =>
    rw [execUFetch_of_some hw] at h
    cases h
    exact ⟨rfl, rfl⟩
  | none =>
    rw [execUFetch_of_none hw] at h
    cases h

/-- The two emits are the only instructions that write a memory. -/
theorem keepsMemories_exec {i : Instr} (htzc : i ≠ .uEmitTzc) (hlsb : i ≠ .uEmitLsb) : KeepsMemories (exec i) := by
  cases i with
  | rd a => exact .next fun _ => ⟨rfl, rfl⟩
  | wrCtrl d => exact .unlessBusy fun _ => ⟨rfl, rfl⟩
  | wrCmd d => exact keepsMemories_wrCmd d
  | wrStatus d => exact .next fun _ => ⟨rfl, rfl⟩
  | wrNwords d => exact .unlessBusy fun _ => ⟨rfl, rfl⟩
  | wrCap d => exact .unlessBusy fun _ => ⟨rfl, rfl⟩
  | wrCard d => exact .next fun _ => ⟨rfl, rfl⟩
  | wrErrcode d => exact .next fun _ => ⟨rfl, rfl⟩
  | wrRsv7 d => exact .next fun _ => ⟨rfl, rfl⟩
  | nop => exact .next fun _ => ⟨rfl, rfl⟩
  | start => exact keepsMemories_start
  | clear => exact .unlessBusy fun _ => ⟨rfl, rfl⟩
  | cmdRsv3 => exact .next fun _ => ⟨rfl, rfl⟩
  | uFetch => exact keepsMemories_uFetch
  | uFinish => exact .next fun _ => ⟨rfl, rfl⟩
  | uSkip => exact .next fun _ => ⟨rfl, rfl⟩
  | uEmitTzc => exact absurd rfl htzc
  | uEmitLsb => exact absurd rfl hlsb
  | uTrapCap => exact .next fun _ => ⟨rfl, rfl⟩
  | uHold => exact .next fun _ => ⟨rfl, rfl⟩

/-! ### The two emits -/

/-- An emit leaves the word memory alone and writes element CNT of the output memory (R48). -/
theorem State.emit_memories {s t : State} {idx : BitIdx} {clr : Word} (h : s.emit idx clr = .next t) :
    t.wmem = s.wmem ∧ t.omem = Memory.write s.omem s.cnt.toNat (posAdd s.cfg s.base idx) := by
  obtain ⟨_, rfl⟩ := State.emit_next h
  exact ⟨rfl, rfl⟩

/-- Both emits are the shared operation, each with its own index and mask (R103, R104). -/
theorem exec_emit {i : Instr} (hi : i = .uEmitTzc ∨ i = .uEmitLsb) (s : State) :
    ∃ idx clr, exec i s = s.emit idx clr := by
  rcases hi with rfl | rfl
  · exact ⟨_, _, rfl⟩
  · exact ⟨_, _, rfl⟩

/-- Settles O35: an instruction that is no emit keeps both memories (`keepsMemories_exec`), and an emit writes element CNT
of the output memory, so that every other element reads as before. -/
theorem memoryFrame : Obligations.MemoryFrame := by
  intro i s t h
  by_cases hemit : i = .uEmitTzc ∨ i = .uEmitLsb
  · obtain ⟨idx, clr, he⟩ := exec_emit hemit s
    obtain ⟨hw, ho⟩ := State.emit_memories (he.symm.trans h)
    refine ⟨hw, fun htzc hlsb => (hemit.elim htzc hlsb).elim, fun a ha => ?_⟩
    rw [ho, Memory.read_write_other _ _ ha]
  · obtain ⟨htzc, hlsb⟩ := not_or.1 hemit
    obtain ⟨hw, ho⟩ := keepsMemories_exec htzc hlsb s t h
    exact ⟨hw, fun _ _ a => by rw [ho], fun a _ => by rw [ho]⟩

/-! ### The output write port -/

/-- R67 selects an emit exactly in SCAN with a bit left and room for its position. -/
theorem selected_emit_iff (st : St) (e z f strat : Bool) :
    (selected st e z f strat = .uEmitTzc ∨ selected st e z f strat = .uEmitLsb) ↔
      st = .scan ∧ z = false ∧ f = false := by
  cases st with
  | idle => simp [selected]
  | done => simp [selected]
  | fault => simp [selected]
  | fetch => cases e <;> simp [selected]
  | scan => cases z <;> cases f <;> cases strat <;> simp [selected]

/-- The line `o_we` in terms of the registers (R53, R190). -/
theorem State.oWe_iff (s : State) :
    s.oWe = true ↔ s.hostNow.rst = false ∧ s.st = .scan ∧ s.zeroPred = false ∧ s.fullPred = false := by
  simp [State.oWe, and_assoc]

theorem State.oWe_of_reset {s : State} (hr : s.hostNow.rst = true) : s.oWe = false := by
  simp [State.oWe, hr]

theorem State.oWe_of_notScan {s : State} (hst : s.st ≠ .scan) : s.oWe = false := by
  simp [State.oWe, hst]

theorem State.oWe_of_bitsetZero {s : State} (hz : s.bitset = 0) : s.oWe = false := by
  simp [State.oWe, State.zeroPred, hz]

theorem State.oWe_of_full {s : State} (hk : s.chk = true) (hc : s.cap.toNat ≤ s.cnt.toNat) : s.oWe = false := by
  simp [State.oWe, State.fullPred, hk, hc]

/-- The host's part of a step does not reach the output memory (R41). -/
theorem HostEffect.omem_eq {s t : State} (h : HostEffect s t) : t.omem = s.omem := by
  cases h <;> rfl

/-- The lines `o_we`, `o_addr` and `o_wdata` say all that a step does to the output memory. -/
theorem StepCase.omem_eq {s t : State} (h : StepCase s t) :
    t.omem = if s.oWe then Memory.write s.omem s.oAddr.toNat s.oWdata else s.omem := by
  cases h with
  | reset hr => rw [State.oWe_of_reset hr]; rfl
  | host t hr hb he => rw [State.oWe_of_notScan (State.ne_of_notBusy hb).2]; exact he.omem_eq
  | fetch w hr hst => rw [State.oWe_of_notScan (by simp [hst])]; rfl
  | finish hr hst => rw [State.oWe_of_notScan (by simp [hst])]; rfl
  | skip hr hst hz => rw [State.oWe_of_bitsetZero hz]; rfl
  | emit hr hst hz hf =>
    have hwe : s.oWe = true := s.oWe_iff.2 ⟨hr, hst, decide_eq_false hz, hf⟩
    rw [hwe]
    rfl
  | trap hr hst hz hk hc => rw [State.oWe_of_full hk hc]; rfl

/-- Settles O42: `o_we` and the selection of an emit are the same condition on the registers, and each case of a step does to
the output memory what the lines say (`StepCase.omem_eq`). -/
theorem outputPort : Obligations.OutputPort := by
  refine ⟨fun s => ?_, fun s t hstep => ?_⟩
  · rw [s.oWe_iff, s.microOp_eq, Except.ok.injEq, Except.ok.injEq, selected_emit_iff]
  · have homem := (step_cases hstep).omem_eq
    exact ⟨fun hwe => by simpa [hwe] using homem, fun hwe => by simpa [hwe] using homem⟩

end Sys2Proof.Machine

/-! PROOFS. The statements about the encodings (30_encoding.md): decoding and encoding in the three formats (R60, R61, R67),
the dispatch vector (R66, R18) and STATUS (R63). -/

namespace Sys2Proof.Machine

/-! ### Format REG -/

/-- The transaction code is nothing but `h_we` and `h_addr` (R60). -/
theorem regCode_regWe_regAddr (t : BitVec 4) : regCode (regWe t) (regAddr t) = t := by
  revert t
  decide

@[simp] theorem decodeReg_read (a : BitVec 3) (d : RegVal) : decodeReg (regCode false a) d = .rd a := by
  simp [decodeReg]

/-- Settles O2: the row of the reads is `decodeReg_read`, each of the writes is a fixed code. -/
theorem regTransactionTable : Obligations.RegTransactionTable := fun d a =>
  ⟨congrArg Except.ok (decodeReg_read a d), rfl, rfl, rfl, rfl, rfl, rfl, rfl, rfl⟩

/-- Decoding a transaction loses its code nowhere, and its data only where it is a read. -/
theorem encode_decodeReg_regCode (we : Bool) (a : BitVec 3) (d : RegVal) :
    encode (decodeReg (regCode we a) d) = .reg (regCode we a) (if we then d else 0) := by
  cases we with
  | false => rw [decodeReg_read]; rfl
  | true =>
    have hcases : ∀ a : BitVec 3, a = 0 ∨ a = 1 ∨ a = 2 ∨ a = 3 ∨ a = 4 ∨ a = 5 ∨ a = 6 ∨ a = 7 := by decide
    rcases hcases a with rfl | rfl | rfl | rfl | rfl | rfl | rfl | rfl <;> rfl

theorem encode_decodeReg (t : BitVec 4) (d : RegVal) :
    encode (decodeReg t d) = .reg t (if t.getLsbD 3 then d else 0) := by
  have h := encode_decodeReg_regCode (regWe t) (regAddr t) d
  rwa [regCode_regWe_regAddr] at h

/-! ### Format CMD -/

/-- Settles O3: the decoder of commands looks at `d[1:0]` alone. -/
theorem commandTable : Obligations.CommandTable := by
  intro d
  have hdecode (c : BitVec 2) (h : d.extractLsb' 0 2 = c) : decode (.cmd d) = decode (.cmd (c.setWidth 64)) := by
    subst h
    simp [decode, decodeCmd]
  exact ⟨hdecode _, hdecode _, hdecode _, hdecode _⟩

/-- The low two bits of a command word, as a word. -/
theorem and_three_eq_setWidth (d : RegVal) : d &&& 3 = (d.extractLsb' 0 2).setWidth 64 := by
  apply BitVec.eq_of_toNat_eq
  have h3 : (3 : RegVal).toNat = 2 ^ 2 - 1 := rfl
  simp only [BitVec.toNat_and, h3, Nat.and_two_pow_sub_one_eq_mod, BitVec.toNat_setWidth, BitVec.extractLsb'_toNat,
    Nat.shiftRight_zero]
  omega

/-- A command word decodes, and the command is encoded as the word's low two bits (R61). -/
theorem exists_decode_cmd (d : RegVal) : ∃ i, decode (.cmd d) = .ok i ∧ encode i = .cmd (d &&& 3) := by
  obtain ⟨hnop, hstart, hclear, hrsv⟩ := commandTable d
  have hcases : ∀ c : BitVec 2, c = 0 ∨ c = 1 ∨ c = 2 ∨ c = 3 := by decide
  rw [and_three_eq_setWidth]
  rcases hcases (d.extractLsb' 0 2) with h | h | h | h
  · exact ⟨.nop, hnop h, by rw [h]; rfl⟩
  · exact ⟨.start, hstart h, by rw [h]; rfl⟩
  · exact ⟨.clear, hclear h, by rw [h]; rfl⟩
  · exact ⟨.cmdRsv3, hrsv h, by rw [h]; rfl⟩

/-! ### Format UOP -/

theorem inRow_iff (c : Code) (r : OpRow) :
    c.inRow r = true ↔ c.format = r.format ∧ c.opBits &&& r.mask = r.pattern := by
  simp [Code.inRow]

/-- Two rows that select one code agree on the bits that both look at. -/
theorem pattern_and_mask_eq_of_inRow {c : Code} {r q : OpRow} (hr : c.inRow r = true) (hq : c.inRow q = true) :
    r.pattern &&& q.mask = q.pattern &&& r.mask := by
  obtain ⟨_, hr⟩ := (inRow_iff c r).1 hr
  obtain ⟨_, hq⟩ := (inRow_iff c q).1 hq
  rw [← hr, ← hq, BitVec.and_assoc, BitVec.and_assoc, BitVec.and_comm r.mask]

/-- No vector selects two rows of R67, because any two rows disagree on a bit that both look at. -/
theorem uop_eq_of_inRow {c : Code} {u v : Instr} (hu : u ∈ uops) (hv : v ∈ uops) (hcu : c.inRow (opcodeRow u) = true)
    (hcv : c.inRow (opcodeRow v) = true) : u = v := by
  have hdisagree : ∀ u ∈ uops, ∀ v ∈ uops,
      (opcodeRow u).pattern &&& (opcodeRow v).mask = (opcodeRow v).pattern &&& (opcodeRow u).mask → u = v := by decide
  exact hdisagree u hu v hv (pattern_and_mask_eq_of_inRow hcu hcv)

/-- A vector that decodes lies in the row of a micro-operation. -/
theorem inRow_of_decodeUop {dv : BitVec 7} {u : Instr} (h : decodeUop dv = .ok u) :
    u ∈ uops ∧ (Code.uop dv).inRow (opcodeRow u) = true := by
  unfold decodeUop at h
  split at h
  · next v hfind =>
    obtain rfl : v = u := Except.ok.inj h
    have hrow := List.find?_some hfind
    exact ⟨List.mem_of_find?_eq_some hfind, hrow⟩
  · cases h

/-- A vector in some row of R67 decodes. -/
theorem exists_decodeUop_of_inRow {dv : BitVec 7} {u : Instr} (hu : u ∈ uops)
    (hrow : (Code.uop dv).inRow (opcodeRow u) = true) : ∃ v, decodeUop dv = .ok v := by
  unfold decodeUop
  split
  · next v _ => exact ⟨v, rfl⟩
  · next hnone => exact absurd hrow (List.find?_eq_none.1 hnone u hu)

/-- The decoder's search and the selection of R67 are the same: the first row that matches is the only one. -/
theorem decodeUop_eq_ok_iff {dv : BitVec 7} {u : Instr} (hu : u ∈ uops) :
    decodeUop dv = .ok u ↔ (Code.uop dv).inRow (opcodeRow u) = true := by
  refine ⟨fun h => (inRow_of_decodeUop h).2, fun hrow => ?_⟩
  obtain ⟨v, hv⟩ := exists_decodeUop_of_inRow hu hrow
  obtain ⟨hmem, hvrow⟩ := inRow_of_decodeUop hv
  exact uop_eq_of_inRow hmem hu hvrow hrow ▸ hv

/-- The selection in the 7 bits of the dispatch vector itself. -/
theorem decodeUop_eq_ok_iff_and {u : Instr} {m p : BitVec 7} (hu : u ∈ uops)
    (hrow : opcodeRow u = ⟨.uop, 7, p.setWidth 8, m.setWidth 8⟩) (dv : BitVec 7) :
    decodeUop dv = .ok u ↔ dv &&& m = p := by
  have hinj : (dv &&& m).setWidth 8 = p.setWidth 8 ↔ dv &&& m = p := by
    rw [← BitVec.toNat_inj, ← BitVec.toNat_inj, BitVec.toNat_setWidth_of_le (by decide),
      BitVec.toNat_setWidth_of_le (by decide)]
  rw [decodeUop_eq_ok_iff hu, hrow, inRow_iff, ← hinj, BitVec.setWidth_and]
  exact and_iff_right rfl

/-- A vector with a state code in its ST field is the vector of that state and some values of the four predicates. -/
theorem St.code_append (st : St) (x : BitVec 4) :
    st.code ++ x = st.code ++ BitVec.ofBool (x.getLsbD 3) ++ BitVec.ofBool (x.getLsbD 2) ++ BitVec.ofBool (x.getLsbD 1) ++
      BitVec.ofBool (x.getLsbD 0) := by
  generalize st.code = c
  revert c x
  decide

/-- Settles O4: each row is `decodeUop_eq_ok_iff_and` at its own mask and match, and a vector with a state code is one that
`decodeUop_vector` decodes. -/
theorem microOpSelectionTable : Obligations.MicroOpSelectionTable := by
  refine ⟨fun dv => ?_, fun st x => ?_⟩
  · refine ⟨?_, ?_, ?_, ?_, ?_, ?_, ?_⟩ <;> exact decodeUop_eq_ok_iff_and (by decide) rfl dv
  · rw [St.code_append]
    have hdecode := decodeUop_vector st (x.getLsbD 3) (x.getLsbD 2) (x.getLsbD 1) (x.getLsbD 0)
    exact ⟨_, (inRow_of_decodeUop hdecode).1, hdecode⟩

/-! ### Decoding and encoding -/

/-- Every instruction's code decodes to it, with every operand at every value. -/
theorem decode_encode (i : Instr) : decode (encode i) = .ok i := by
  cases i with
  | rd a => exact congrArg Except.ok (decodeReg_read a 0)
  | wrCtrl d => rfl
  | wrCmd d => rfl
  | wrStatus d => rfl
  | wrNwords d => rfl
  | wrCap d => rfl
  | wrCard d => rfl
  | wrErrcode d => rfl
  | wrRsv7 d => rfl
  | nop => rfl
  | start => rfl
  | clear => rfl
  | cmdRsv3 => rfl
  | uFetch => exact (decodeUop_eq_ok_iff (by decide)).2 Laws.EncodedInRow.uFetch
  | uFinish => exact (decodeUop_eq_ok_iff (by decide)).2 Laws.EncodedInRow.uFinish
  | uSkip => exact (decodeUop_eq_ok_iff (by decide)).2 Laws.EncodedInRow.uSkip
  | uEmitTzc => exact (decodeUop_eq_ok_iff (by decide)).2 Laws.EncodedInRow.uEmitTzc
  | uEmitLsb => exact (decodeUop_eq_ok_iff (by decide)).2 Laws.EncodedInRow.uEmitLsb
  | uTrapCap => exact (decodeUop_eq_ok_iff (by decide)).2 Laws.EncodedInRow.uTrapCap
  | uHold => exact (decodeUop_eq_ok_iff (by decide)).2 Laws.EncodedInRow.uHold

/-- Settles O1: `decode_encode` in one direction; in the other one lemma per format. -/
theorem decodeEncodeAgree : Obligations.DecodeEncodeAgree := by
  refine ⟨decode_encode, fun t d => ⟨decodeReg t d, rfl, encode_decodeReg t d⟩, exists_decode_cmd, fun dv i h => ?_⟩
  obtain ⟨hformat, hbits⟩ := (inRow_iff _ _).1 (inRow_of_decodeUop h).2
  exact ⟨opcodeRow i, rfl, hformat.symm, hbits⟩

/-! ### The dispatch vector -/

theorem State.endPred_iff (s : State) : s.endPred = true ↔ s.nwords.toNat ≤ s.k.toNat := decide_eq_true_iff

theorem State.zeroPred_iff (s : State) : s.zeroPred = true ↔ s.bitset = 0 := decide_eq_true_iff

theorem State.fullPred_iff (s : State) : s.fullPred = true ↔ s.chk = true ∧ s.cap.toNat ≤ s.cnt.toNat := by
  simp [State.fullPred]

/-- The places of the dispatch vector (R66), whatever ST and the predicates are. -/
theorem State.dispatch_fields (s : State) :
    s.dispatch.extractLsb' 4 3 = s.st.code ∧ s.dispatch.getLsbD 3 = s.endPred ∧ s.dispatch.getLsbD 2 = s.zeroPred ∧
      s.dispatch.getLsbD 1 = s.fullPred ∧ s.dispatch.getLsbD 0 = s.strat := by
  unfold State.dispatch
  generalize s.st.code = c, s.endPred = e, s.zeroPred = z, s.fullPred = f, s.strat = b
  revert c e z f b
  decide

/-- Settles O6: each place of the vector, and then the predicate that stands there (R18). -/
theorem dispatchVectorFields : Obligations.DispatchVectorFields := by
  intro s
  obtain ⟨hst, he, hz, hf, hs⟩ := s.dispatch_fields
  rw [he, hz, hf]
  exact ⟨hst, s.endPred_iff, s.zeroPred_iff, s.fullPred_iff, hs⟩

/-! ### STATUS -/

/-- The table of R63: what STATUS reads in each state of the scanner. -/
def St.status : St → RegVal
  | .idle => 0x00
  | .done => 0x11
  | .fault => 0x22
  | .fetch => 0x0C
  | .scan => 0x0D

/-- STATUS depends on ST alone, by the table of R63. -/
theorem State.statusWord_eq (s : State) : s.statusWord = s.st.status := by
  unfold State.statusWord State.errBit State.doneBit State.busy
  cases s.st <;> rfl

/-- Settles O7: STATUS is the table's entry for ST, and so are its low bits. -/
theorem statusValues : Obligations.StatusValues := by
  intro s
  rw [s.statusWord_eq]
  cases s.st <;> decide

end Sys2Proof.Machine

/-! PROOFS. The statements about the combinational units (40_datapath.md): the counts (R80, R85), the priority encoder (R81),
the one-hot word and the bits below it (R82, R84), the isolated bit (R83), the identities of the two strategies (R86 to R89)
and the position adder (R90). -/

namespace Sys2Proof.Machine

/-! ### The trailing-zero count -/

theorem ctz64_lt {x : Word} (hx : x ≠ 0) : (ctz64 x).toNat < 64 := ctz64_toNat x ▸ lowestSetFrom_lt hx

/-- The trailing-zero count of a nonzero word is the place of a set bit (R80). -/
theorem getLsbD_ctz64 {x : Word} (hx : x ≠ 0) : x.getLsbD (ctz64 x).toNat = true :=
  ctz64_toNat x ▸ lowestSetFrom_set (lowestSetFrom_lt hx)

/-- Every bit below the trailing-zero count is clear, also in the word 0 (R80). -/
theorem getLsbD_of_lt_ctz64 {x : Word} {n : Nat} (hn : n < (ctz64 x).toNat) : x.getLsbD n = false :=
  lowestSetFrom_below (Nat.zero_le n) (ctz64_toNat x ▸ hn)

/-- Six bits hold a count that is below 64, so that the cut of a count to an index loses nothing (R81, R88). -/
theorem extractLsb'_toNat_of_lt {y : BitVec 7} (h : y.toNat < 64) : (y.extractLsb' 0 6).toNat = y.toNat := by
  rw [BitVec.extractLsb'_toNat, Nat.shiftRight_zero, Nat.mod_eq_of_lt h]

/-! ### The population count -/

/-- The count of set bits is the sum of the bits (R85). -/
theorem onesBelow_eq_sum (n : Nat) (x : Word) :
    onesBelow n x = ((List.range n).map (fun i => (x.getLsbD i).toNat)).sum := by
  induction n with
  | zero => rfl
  | succ n ih => simp [onesBelow, ih, List.range_succ]

/-- A word whose set bits are exactly those below `n` has `n` of them, as far as the count reaches. -/
theorem onesBelow_of_lowMask {y : Word} {n : Nat} (hy : ∀ j, y.getLsbD j = decide (j < n)) (m : Nat) :
    onesBelow m y = min m n := by
  induction m with
  | zero => simp [onesBelow]
  | succ m ih =>
    simp only [onesBelow, ih, hy m]
    by_cases h : m < n
    · rw [decide_eq_true h, Bool.toNat_true]
      omega
    · rw [decide_eq_false h, Bool.toNat_false]
      omega

/-- Settles O9: `ctz64` by what the search passes and where it stops, `popcount64` by `onesBelow_eq_sum`. -/
theorem countUnits : Obligations.CountUnits := by
  refine ⟨fun x hx => ⟨Nat.le_of_lt_succ (ctz64_lt hx), getLsbD_ctz64 hx, fun _ => getLsbD_of_lt_ctz64⟩, by decide, fun x => ?_⟩
  rw [popcount64_toNat, onesBelow_eq_sum]

/-! ### The priority encoder -/

/-- The index of a nonzero word is its trailing-zero count. -/
theorem penc_index_toNat {x : Word} (hx : x ≠ 0) : (penc x).2.toNat = (ctz64 x).toNat :=
  extractLsb'_toNat_of_lt (ctz64_lt hx)

/-- Settles O10: the index is the trailing-zero count (`penc_index_toNat`), which has the lowest set bit. -/
theorem priorityEncoder : Obligations.PriorityEncoder := by
  refine fun x => ⟨decide_eq_true_iff, rfl, fun hx => ?_, by decide⟩
  rw [penc_index_toNat hx]
  exact ⟨getLsbD_ctz64 hx, fun _ => getLsbD_of_lt_ctz64⟩

/-! ### The one-hot word and the bits below it -/

theorem onehot64_toNat (n : BitIdx) : (onehot64 n).toNat = 2 ^ n.toNat := by
  rw [onehot64, ← BitVec.twoPow_eq, BitVec.toNat_twoPow_of_lt n.isLt]

theorem below64_toNat (t : Word) : (below64 t).toNat = (t.toNat + 2 ^ 64 - 1) % 2 ^ 64 := by
  have hone : (1 : Word).toNat = 1 := rfl
  rw [below64, BitVec.toNat_sub, hone]
  omega

/-- The subtraction borrows from no higher bit where it has a one to take. -/
theorem below64_toNat_of_pos {t : Word} (ht : 0 < t.toNat) : (below64 t).toNat = t.toNat - 1 := by
  rw [below64_toNat]
  omega

/-- Below a one-hot word are exactly the bits under its own (R84). -/
theorem getLsbD_below64_onehot64 (n : BitIdx) (j : Nat) : (below64 (onehot64 n)).getLsbD j = decide (j < n.toNat) := by
  have hpos : 0 < (onehot64 n).toNat := onehot64_toNat n ▸ Nat.two_pow_pos _
  rw [BitVec.getLsbD, below64_toNat_of_pos hpos, onehot64_toNat, Nat.testBit_two_pow_sub_one]

/-- Settles O11: one lemma for each of the two units, and one for the two together. -/
theorem oneHotAndBelow : Obligations.OneHotAndBelow :=
  ⟨onehot64_toNat, below64_toNat, getLsbD_below64_onehot64, by decide⟩

/-! ### The isolated bit -/

/-- The masks of the two strategies are equal: both hold exactly the lowest set bit (R87, R89). -/
theorem onehot64_ctz64_eq_iso64 {x : Word} (hx : x ≠ 0) : onehot64 ((ctz64 x).extractLsb' 0 6) = iso64 x :=
  BitVec.eq_of_getLsbD_eq fun i _ => (getLsbD_onehot64_ctz64 hx i).trans (getLsbD_iso64 hx i).symm

theorem iso64_toNat {x : Word} (hx : x ≠ 0) : (iso64 x).toNat = 2 ^ (ctz64 x).toNat := by
  rw [← onehot64_ctz64_eq_iso64 hx, onehot64_toNat, extractLsb'_toNat_of_lt (ctz64_lt hx)]

/-- Settles O12: the isolated bit is the one-hot word of the trailing-zero count. -/
theorem isolatesLowestBit : Obligations.IsolatesLowestBit :=
  ⟨fun x => ⟨BitVec.toNat_neg x, rfl⟩, fun _ => iso64_toNat, by decide⟩

/-! ### The identities of the two strategies -/

/-- The bits below the isolated bit are those the trailing-zero count passes. -/
theorem getLsbD_below64_iso64 {x : Word} (hx : x ≠ 0) (j : Nat) :
    (below64 (iso64 x)).getLsbD j = decide (j < (ctz64 x).toNat) := by
  rw [← onehot64_ctz64_eq_iso64 hx, getLsbD_below64_onehot64, extractLsb'_toNat_of_lt (ctz64_lt hx)]

/-- Settles O13: the bits below the isolated bit are the places below the trailing-zero count, and there are that many. -/
theorem indexIdentity : Obligations.IndexIdentity := by
  intro x hx
  apply BitVec.eq_of_toNat_eq
  rw [popcount64_toNat, onesBelow_of_lowMask (getLsbD_below64_iso64 hx), Nat.min_eq_right (ctz64_lt hx).le]

/-- `x - 1` is the complement of `-x`, so that clearing the bits that x shares with `-x` keeps those it shares with
`x - 1` (R87); this holds for 0 too. -/
theorem xor_iso64_eq_and_below64 (x : Word) : x ^^^ iso64 x = x &&& below64 x := by
  have hnot : below64 x = ~~~neg64 x := (BitVec.not_neg x).symm
  rw [hnot, iso64]
  refine BitVec.eq_of_getLsbD_eq fun i hi => ?_
  simp only [BitVec.getLsbD_xor, BitVec.getLsbD_and, BitVec.getLsbD_not, hi, decide_true, Bool.true_and]
  cases x.getLsbD i <;> simp

/-- Clearing the isolated bit takes away the lowest set bit alone (R87). -/
theorem getLsbD_xor_iso64 {x : Word} (hx : x ≠ 0) (j : Nat) :
    (x ^^^ iso64 x).getLsbD j = (x.getLsbD j && decide (j ≠ (ctz64 x).toNat)) := by
  rw [BitVec.getLsbD_xor, getLsbD_iso64 hx, ← ctz64_toNat]
  by_cases h : j = (ctz64 x).toNat
  · simp [h, getLsbD_ctz64 hx]
  · simp [h]

/-- Settles O14: the masks are equal, `x & (x - 1)` is the isolating clear, and that is read bit by bit. -/
theorem clearIdentity : Obligations.ClearIdentity := fun x hx =>
  ⟨congrArg (x ^^^ ·) (onehot64_ctz64_eq_iso64 hx), xor_iso64_eq_and_below64 x, getLsbD_xor_iso64 hx⟩

/-! ### The output mux -/

/-- Both arms of the index half agree on a nonzero word, because the two counts do (R86, R88). -/
theorem idxMux_false_eq_true {x : Word} (hx : x ≠ 0) : idxMux false x = idxMux true x :=
  congrArg (BitVec.extractLsb' 0 6) (indexIdentity x hx).symm

/-- The index of a nonzero word, by either arm, is its trailing-zero count (R88). -/
theorem idxMux_toNat {x : Word} (strat : Bool) (hx : x ≠ 0) : (idxMux strat x).toNat = (ctz64 x).toNat := by
  have hfalse : (idxMux false x).toNat = (ctz64 x).toNat := extractLsb'_toNat_of_lt (ctz64_lt hx)
  cases strat with
  | false => exact hfalse
  | true => exact idxMux_false_eq_true hx ▸ hfalse

/-- Settles O15: the arms are the definitions, their agreement is that of the two counts and of the two masks. -/
theorem outputMux : Obligations.OutputMux :=
  ⟨fun _ => ⟨rfl, rfl, rfl, rfl⟩,
    fun _ hx => ⟨idxMux_false_eq_true hx, idxMux_toNat true hx, onehot64_ctz64_eq_iso64 hx⟩, by decide⟩

/-! ### The position adder -/

theorem posAdd_toNat (c : Config) (base : RegVal) (idx : BitIdx) :
    (posAdd c base idx).toNat = (base.toNat + idx.toNat) % 2 ^ c.posw.bits := by
  have hdvd : 2 ^ c.posw.bits ∣ 2 ^ 64 := Nat.pow_dvd_pow 2 (by cases c.posw <;> decide)
  rw [posAdd, addPosw, trunc_toNat, BitVec.toNat_add, Nat.mod_mod_of_dvd _ hdvd, BitVec.toNat_setWidth_of_le (by decide)]

/-- R6's bound on NMAX keeps the positions of every word up to word NMAX in the lower half of the POSW-bit values (R90). -/
theorem State.Inv.positions_le_half {s : State} (h : s.Inv) : 64 * s.cfg.nmax + 64 ≤ 2 ^ (s.cfg.posw.bits - 1) := by
  obtain ⟨_, hmax⟩ := h.paramsLegal
  revert hmax
  unfold Config.nmaxBound
  cases s.cfg.posw <;> simp only [Posw.bits] <;> omega

/-- In a good state every position of word K, whatever its index, is in the lower half of the POSW-bit values. -/
theorem State.Inv.position_lt_half {s : State} (h : s.Inv) (idx : BitIdx) :
    s.base.toNat + idx.toNat < 2 ^ (s.cfg.posw.bits - 1) := by
  have hhalf := h.positions_le_half
  have hbase := h.baseIs
  have hk := h.kMax
  have hidx := idx.isLt
  omega

/-- In a good state the position adder does not wrap (R90). -/
theorem State.Inv.posAdd_toNat_eq {s : State} (h : s.Inv) (idx : BitIdx) :
    (posAdd s.cfg s.base idx).toNat = s.base.toNat + idx.toNat := by
  have hhalf : 2 ^ (s.cfg.posw.bits - 1) ≤ 2 ^ s.cfg.posw.bits := Nat.pow_le_pow_right (by decide) (Nat.sub_le _ _)
  rw [posAdd_toNat, Nat.mod_eq_of_lt ((h.position_lt_half idx).trans_le hhalf)]

/-- A word index below `2^58` in front of a bit index is their position as a number. -/
theorem concat_toNat {k : RegVal} (hk : k.toNat < 2 ^ 58) (idx : BitIdx) :
    (k.extractLsb' 0 58 ++ idx : RegVal).toNat = 64 * k.toNat + idx.toNat := by
  rw [BitVec.toNat_append, ← Nat.shiftLeft_add_eq_or_of_lt idx.isLt, BitVec.extractLsb'_toNat, Nat.shiftRight_zero,
    Nat.mod_eq_of_lt hk, Nat.shiftLeft_eq, Nat.mul_comm]

/-- In a good state K has at most 58 significant bits, for either width of a position. -/
theorem State.Inv.k_lt {s : State} (h : s.Inv) : s.k.toNat < 2 ^ 58 := by
  have hhalf := h.positions_le_half
  have hk := h.kMax
  have h63 : 2 ^ (s.cfg.posw.bits - 1) ≤ 2 ^ 63 := Nat.pow_le_pow_right (by decide) (by cases s.cfg.posw <;> decide)
  omega

/-- In a good state the position adder appends the bit index to K, because `BASE = 64 * K` (R90, R144). -/
theorem State.Inv.posAdd_eq_concat {s : State} (h : s.Inv) (idx : BitIdx) :
    posAdd s.cfg s.base idx = s.k.extractLsb' 0 58 ++ idx := by
  apply BitVec.eq_of_toNat_eq
  rw [h.posAdd_toNat_eq idx, concat_toNat h.k_lt, h.baseIs]

/-- Settles O16: addition modulo `2^POSW` is the adder's definition, and the invariant bounds the sum. -/
theorem positionAdder : Obligations.PositionAdder :=
  ⟨posAdd_toNat, fun _ idx h =>
    ⟨h.posAdd_toNat_eq idx, h.posAdd_toNat_eq idx ▸ h.position_lt_half idx, h.posAdd_eq_concat idx⟩⟩

end Sys2Proof.Machine

/-! PROOFS. The statements about the micro-operations (41_microops.md): which one a step runs (R107), what each of them does
(R100 to R106), the ways ST changes (R108), and the bound on every write to the output memory (R105, R150, R154). -/

namespace Sys2Proof.Machine

/-! ### Which micro-operation a step runs -/

/-- The rows of R67 are seven different micro-operations. -/
theorem filter_uops_eq {u : Instr} (hu : u ∈ uops) : uops.filter (fun v => decide (v = u)) = [u] := by
  revert u
  decide

/-- Settles O5: the selected micro-operation's row matches, and no other row does (`uop_eq_of_inRow`). -/
theorem exactlyOneMicroOp : Obligations.ExactlyOneMicroOp := by
  intro s
  refine ⟨_, ?_, s.microOp_eq⟩
  obtain ⟨hu, hrow⟩ := inRow_of_decodeUop s.microOp_eq
  rw [← filter_uops_eq hu]
  refine List.filter_congr fun v hv => Bool.eq_iff_iff.2 ?_
  rw [decide_eq_true_iff]
  exact ⟨fun hvrow => uop_eq_of_inRow hv hu hvrow hrow, fun h => h ▸ hrow⟩

theorem State.microOp_eq_ok_iff (s : State) (u : Instr) :
    s.microOp = .ok u ↔ selected s.st s.endPred s.zeroPred s.fullPred s.strat = u := by
  rw [s.microOp_eq, Except.ok.injEq]

/-- The rows of R67 as conditions on ST and the predicates. -/
theorem selected_table (st : St) (e z f strat : Bool) :
    (selected st e z f strat = .uFetch ↔ st = .fetch ∧ e = false) ∧
    (selected st e z f strat = .uFinish ↔ st = .fetch ∧ e = true) ∧
    (selected st e z f strat = .uSkip ↔ st = .scan ∧ z = true) ∧
    (selected st e z f strat = .uEmitTzc ↔ st = .scan ∧ z = false ∧ f = false ∧ strat = false) ∧
    (selected st e z f strat = .uEmitLsb ↔ st = .scan ∧ z = false ∧ f = false ∧ strat = true) ∧
    (selected st e z f strat = .uTrapCap ↔ st = .scan ∧ z = false ∧ f = true) ∧
    (selected st e z f strat = .uHold ↔ st = .idle ∨ st = .done ∨ st = .fault) := by
  cases st with
  | idle => simp [selected]
  | done => simp [selected]
  | fault => simp [selected]
  | fetch => cases e <;> simp [selected]
  | scan => cases z <;> cases f <;> cases strat <;> simp [selected]

theorem State.zeroPred_eq_false_iff (s : State) : s.zeroPred = false ↔ s.bitset ≠ 0 := decide_eq_false_iff_not

theorem State.fullPred_eq_false_iff (s : State) :
    s.fullPred = false ↔ ¬(s.chk = true ∧ s.cap.toNat ≤ s.cnt.toNat) := by
  rw [← s.fullPred_iff, Bool.not_eq_true]

/-! ### The micro-operations that write registers alone -/

/-- Settles O26: a word memory that has an element K completes the fetch. -/
theorem fetchLoadsWord : Obligations.FetchLoadsWord := fun _ _ hw => execUFetch_of_some hw

/-- Settles O27: U.FINISH writes ST, from which DONE and BUSY are read. -/
theorem finishKeepsCount : Obligations.FinishKeepsCount := fun s => ⟨s.setSt .done, rfl, rfl, rfl, rfl⟩

theorem addPosw_toNat (c : Config) (a b : RegVal) : (addPosw c a b).toNat = (a.toNat + b.toNat) % 2 ^ c.posw.bits := by
  have hdvd : 2 ^ c.posw.bits ∣ 2 ^ 64 := Nat.pow_dvd_pow 2 (by cases c.posw <;> decide)
  rw [addPosw, trunc_toNat, BitVec.toNat_add, Nat.mod_mod_of_dvd _ hdvd]

/-- The word after the one being scanned is at most NMAX, whose positions R6 bounds, so that neither sum of U.SKIP wraps
(R147). -/
theorem State.Inv.skip_sums {s : State} (h : s.Inv) (hst : s.st = .scan) :
    (addPosw s.cfg s.k 1).toNat = s.k.toNat + 1 ∧ (addPosw s.cfg s.base 64).toNat = s.base.toNat + 64 := by
  have hrange := h.scanRange hst
  have hlen := h.busyLength (s.busy_iff.2 (.inr hst))
  have hbound := h.positions_lt
  have hbase := h.baseIs
  exact ⟨addPosw_toNat_of_lt (show s.k.toNat + 1 < _ by omega), addPosw_toNat_of_lt (show s.base.toNat + 64 < _ by omega)⟩

/-- Settles O28: the two sums are `addPosw`, and R67 selects U.SKIP before it looks at `f`. -/
theorem skipMovesOn : Obligations.SkipMovesOn := by
  refine ⟨fun s => ⟨_, rfl, rfl, addPosw_toNat _ _ _, addPosw_toNat _ _ _, State.Inv.skip_sums⟩, fun s => ?_⟩
  obtain ⟨_, _, hskip, _⟩ := selected_table s.st s.endPred s.zeroPred s.fullPred s.strat
  rw [s.microOp_eq_ok_iff, hskip, s.zeroPred_iff]

/-- Settles O32: the effect is `raise`, and R67's row is read in the registers. -/
theorem trapOnFullBuffer : Obligations.TrapOnFullBuffer := by
  refine ⟨fun s => congrArg Host.Outcome.next (raiseWritesTwoRegisters s).1, fun s => ?_⟩
  obtain ⟨_, _, _, _, _, htrap, _⟩ := selected_table s.st s.endPred s.zeroPred s.fullPred s.strat
  rw [s.microOp_eq_ok_iff, htrap, s.zeroPred_eq_false_iff, s.fullPred_iff]

/-- Settles O33: R67 selects U.HOLD by ST alone. -/
theorem holdDoesNothing : Obligations.HoldDoesNothing := by
  refine ⟨fun _ => rfl, fun s => ?_⟩
  obtain ⟨_, _, _, _, _, _, hhold⟩ := selected_table s.st s.endPred s.zeroPred s.fullPred s.strat
  rw [s.microOp_eq_ok_iff, hhold]

/-! ### The two emits -/

/-- What an emit below CAP leaves, whatever the index and the mask: one element more in the output memory, the masked bits of
BITSET flipped, CNT one more, and every other register as before (R103, R104, R48). -/
theorem State.emit_completes {s : State} (idx : BitIdx) (clr : Word) (hc : s.cnt.toNat < s.cap.toNat) :
    ∃ t, s.emit idx clr = .next t ∧
      t = { s with omem := t.omem, bitset := s.bitset ^^^ clr, cnt := t.cnt } ∧
      t.cnt.toNat = (s.cnt.toNat + 1) % 2 ^ s.cfg.posw.bits ∧
      Memory.read t.omem s.cnt.toNat = some (posAdd s.cfg s.base idx) ∧
      (∀ j, j ≠ s.cnt.toNat → Memory.read t.omem j = Memory.read s.omem j) ∧ (Memory.wf s.omem → Memory.wf t.omem) :=
  ⟨_, State.emit_of_lt hc, rfl, addPosw_toNat _ _ _, Memory.read_write_same _ _ _,
    fun _ hj => Memory.read_write_other _ _ hj, fun h => Memory.write_wf h _ _⟩

/-- Settles O29: U.EMIT.TZC is the shared emit with the trailing-zero count and its one-hot mask. -/
theorem emitByTrailingZeros : Obligations.EmitByTrailingZeros := fun _ _ _ hc => State.emit_completes _ _ hc

/-- With a bit due both emits do the same: the two indices are equal (R86), and so are the two masks (R87, R93). -/
theorem execUEmitTzc_eq_execUEmitLsb {s : State} (hz : s.bitset ≠ 0) : execUEmitTzc s = execUEmitLsb s := by
  rw [execUEmitTzc, execUEmitLsb, onehot64_ctz64_eq_iso64 hz, indexIdentity s.bitset hz]

/-- Settles O30: the shared emit with the isolated bit, which U.EMIT.TZC equals. -/
theorem emitByIsolation : Obligations.EmitByIsolation := by
  intro s _ hz hc
  obtain ⟨t, hrun, hregs, hcnt, helem, hother, hwf⟩ :=
    State.emit_completes ((popcount64 (below64 (iso64 s.bitset))).extractLsb' 0 6) (iso64 s.bitset) hc
  exact ⟨t, hrun, hregs, hcnt, helem, hother, hwf, (execUEmitTzc_eq_execUEmitLsb hz).trans hrun⟩

/-! ### The ways ST changes -/

/-- While the block is not busy the host moves ST by START and CLEAR, and by nothing else (R108). -/
theorem HostEffect.st_cases {s t : State} (h : HostEffect s t) (hb : s.busy = false) :
    (s.hostNow.isStart = true ∧ s.nwords.toNat ≤ s.cfg.nmax ∧ t.st = .fetch) ∨
    (s.hostNow.isStart = true ∧ s.cfg.nmax < s.nwords.toNat ∧ t.st = .fault) ∨
    (s.hostNow.isClear = true ∧ t.st = .idle) ∨
    (s.hostNow.isStart = false ∧ s.hostNow.isClear = false ∧ t.st = s.st) := by
  cases h with
  | quiet _ hq =>
    obtain ⟨hs, hc⟩ := hq hb
    exact .inr (.inr (.inr ⟨hs, hc, rfl⟩))
  | read _ hs hc => exact .inr (.inr (.inr ⟨hs, hc, rfl⟩))
  | ctrl _ _ _ hs hc => exact .inr (.inr (.inr ⟨hs, hc, rfl⟩))
  | nwords _ _ _ hs hc => exact .inr (.inr (.inr ⟨hs, hc, rfl⟩))
  | cap _ _ _ hs hc => exact .inr (.inr (.inr ⟨hs, hc, rfl⟩))
  | begin _ _ hs _ hn => exact .inl ⟨hs, hn, rfl⟩
  | invalid _ _ hs _ hn => exact .inr (.inl ⟨hs, hn, rfl⟩)
  | clear _ _ _ hc => exact .inr (.inr (.inl ⟨hc, rfl⟩))

/-- Settles O40: each case of `step_cases` is a row of R108, but for the host's, whose rows are `HostEffect.st_cases`. -/
theorem stateGraph : Obligations.StateGraph := by
  intro s t hstep
  cases step_cases hstep with
  | reset hr => exact .inl ⟨hr, rfl⟩
  | host _ hr hb he => exact .inr ⟨hr, .inl ⟨s.notBusy_iff.1 hb, he.st_cases hb⟩⟩
  | fetch _ hr hst he => exact .inr ⟨hr, .inr (.inl ⟨hst, he, rfl⟩)⟩
  | finish hr hst he => exact .inr ⟨hr, .inr (.inr (.inl ⟨hst, he, rfl⟩))⟩
  | emit hr hst hz hf =>
    exact .inr ⟨hr, .inr (.inr (.inr (.inl ⟨hst, hz, s.fullPred_eq_false_iff.1 hf, hst⟩)))⟩
  | skip hr hst hz => exact .inr ⟨hr, .inr (.inr (.inr (.inr (.inl ⟨hst, hz, rfl⟩))))⟩
  | trap hr hst hz hk hc => exact .inr ⟨hr, .inr (.inr (.inr (.inr (.inr ⟨hst, hz, hk, hc, rfl⟩))))⟩

/-! ### The bound on every write -/

/-- A step leaves the output memory as it is or writes element CNT of it, which is below CAP (R48, R154). -/
theorem StepCase.omem_cases {s t : State} (h : StepCase s t) :
    t.omem = s.omem ∨ ∃ v, s.cnt.toNat < s.cap.toNat ∧ t.omem = Memory.write s.omem s.cnt.toNat v := by
  cases h with
  | reset => exact .inl rfl
  | host _ _ _ he => exact .inl he.omem_eq
  | fetch => exact .inl rfl
  | finish => exact .inl rfl
  | skip => exact .inl rfl
  | emit _ _ _ _ hc => exact .inr ⟨_, hc, rfl⟩
  | trap => exact .inl rfl

/-- Settles O43: the only index a step writes is below CAP, so it is none from CAP on. -/
theorem noWriteBeyondCap : Obligations.NoWriteBeyondCap := by
  intro s t hstep j hj
  rcases (step_cases hstep).omem_cases with homem | ⟨v, hc, homem⟩
  · rw [homem]
  · rw [homem, Memory.read_write_other _ _ (by omega)]

end Sys2Proof.Machine

/-! PROOFS. The statements about the host's accesses and commands (42_commands.md): reads (R121), the configuration writes
(R122 to R125), the four commands and WR.CMD, which issues them (R126 to R130), and the writes a busy block ignores (R131). -/

namespace Sys2Proof.Machine

/-! ### The writes a busy block ignores -/

/-- The guard of R131 in terms of ST. -/
theorem State.unlessBusy_eq (s t : State) : s.unlessBusy t = if s.st = .fetch ∨ s.st = .scan then s else t :=
  if_congr s.busy_iff rfl rfl

theorem execWrCmd_of_busy {s : State} (d : RegVal) (hb : s.busy = true) : execWrCmd d s = .next s := by
  rw [execWrCmd, if_pos hb]

/-- A busy step is the selected micro-operation, run on the registers as they were: of the host's access only the answer to
a read is left. -/
theorem step_of_busy {s : State} (hr : s.hostNow.rst = false) (hb : s.busy = true) :
    step s = exec (selected s.st s.endPred s.zeroPred s.fullPred s.strat) s.answered := by
  obtain ⟨m, hm, he⟩ := hostPhase_effect s
  obtain rfl : m = s.answered := he.busy_eq hb
  rw [step_run hr, hm]
  rfl

theorem State.answer_eq_zero_of_notRead {s : State} (h : s.hostNow.isRead = false) : s.answer = 0 := by
  simp [State.answer, h]

theorem HostIn.isRead_eq_false_of_isWrite {p : HostIn} (h : p.isWrite = true) : p.isRead = false := by
  obtain ⟨_, hwe⟩ : p.hValid = true ∧ p.hWe = true := by simpa [HostIn.isWrite] using h
  simp [HostIn.isRead, hwe]

/-- Only a reset step and a host access to a block that is not busy write the configuration registers. -/
theorem StepCase.config_eq_of_busy {s t : State} (h : StepCase s t) (hr : s.hostNow.rst = false) (hb : s.busy = true) :
    t.strat = s.strat ∧ t.chk = s.chk ∧ t.nwords = s.nwords ∧ t.cap = s.cap := by
  cases h with
  | reset hrst => simp [hr] at hrst
  | host _ _ hnb => simp [hb] at hnb
  | fetch => simp
  | finish => simp
  | skip => simp
  | emit => simp
  | trap => simp

/-- Settles O25: the guarded writes and commands leave a busy state as it is; a busy step depends on the pins through the
answer alone (`step_of_busy`), which is 0 for a write as it is for no access. -/
theorem busyWritesIgnored : Obligations.BusyWritesIgnored := by
  refine ⟨fun s d hst => ?_, fun s p rest hst hrst hwrite hscript => ?_⟩
  · have hb := s.busy_iff.2 hst
    have hguard (t : State) : (.next (s.unlessBusy t) : Host.Outcome State Fault Refusal) = .next s := by
      rw [State.unlessBusy_busy t hb]
    exact ⟨hguard _, execWrCmd_of_busy d hb, hguard _, hguard _, hguard _, hguard _⟩
  · have hb := s.busy_iff.2 hst
    have hnow : s.hostNow = p := by simp [State.hostNow, hscript]
    have hr : s.hostNow.rst = false := hnow ▸ hrst
    have hanswered : s.answered = (s.setScript (HostIn.idle :: rest)).answered := by
      have hwritten : s.answer = 0 := State.answer_eq_zero_of_notRead (hnow ▸ HostIn.isRead_eq_false_of_isWrite hwrite)
      simp only [State.answered, State.tick, hscript, hwritten]
      rfl
    refine ⟨?_, fun t hstep => (step_cases hstep).config_eq_of_busy hr hb⟩
    rw [step_of_busy hr hb, hanswered]
    exact (step_of_busy (s := s.setScript (HostIn.idle :: rest)) rfl hb).symm

/-! ### Reads -/

/-- The bits of CTRL (R62) as a sum of their weights. -/
theorem State.ctrlWord_eq (s : State) : s.ctrlWord = (if s.chk then 2 else 0) + (if s.strat then 1 else 0) := by
  unfold State.ctrlWord
  cases s.chk <;> cases s.strat <;> rfl

/-- The bits of STATUS (R63) as a sum of their weights. -/
theorem State.statusWord_eq_sum (s : State) :
    s.statusWord = (if s.st = .fault then 32 else 0) + (if s.st = .done then 16 else 0) +
      (if s.st = .fetch ∨ s.st = .scan then 8 else 0) + s.st.code.setWidth 64 := by
  rw [s.statusWord_eq]
  cases s.st <;> rfl

theorem HostEffect.hRdata_eq {s t : State} (h : HostEffect s t) : t.hRdata = s.answer := by
  cases h with
  | read hp => simp [State.answer, hp]
  | quiet hp => exact (State.answer_eq_zero_of_notRead hp).symm
  | ctrl _ _ hp => exact (State.answer_eq_zero_of_notRead hp).symm
  | nwords _ _ hp => exact (State.answer_eq_zero_of_notRead hp).symm
  | cap _ _ hp => exact (State.answer_eq_zero_of_notRead hp).symm
  | begin _ hp => exact (State.answer_eq_zero_of_notRead hp).symm
  | invalid _ hp => exact (State.answer_eq_zero_of_notRead hp).symm
  | clear _ hp => exact (State.answer_eq_zero_of_notRead hp).symm

/-- What every step drives on `h_rdata`: 0 under reset (R190), else the answer to the host (R60, R121). -/
theorem StepCase.hRdata_eq {s t : State} (h : StepCase s t) : t.hRdata = if s.hostNow.rst then 0 else s.answer := by
  cases h with
  | reset hr => rw [if_pos hr]; rfl
  | host _ hr _ he => simp [hr, he.hRdata_eq]
  | fetch _ hr => simp [hr]
  | finish hr => simp [hr]
  | skip hr => simp [hr]
  | emit hr => simp [hr]
  | trap hr => simp [hr]

/-- Settles O17: a read's next state differs in `h_rdata` alone, and every step drives the answer read off the registers
before it (`StepCase.hRdata_eq`). -/
theorem registerReads : Obligations.RegisterReads := by
  refine ⟨fun s => ?_, fun s t m hrst hread hstep hexec => ?_, fun s t hquiet hstep => ?_⟩
  · have hrd (a : BitVec 3) (v : RegVal) (hv : s.readReg a = v) : exec (.rd a) s = .next { s with hRdata := v } :=
      hv ▸ rfl
    exact ⟨hrd 0 _ s.ctrlWord_eq, hrd 1 _ rfl, hrd 2 _ s.statusWord_eq_sum, hrd 3 _ rfl, hrd 4 _ rfl, hrd 5 _ rfl,
      hrd 6 _ rfl, hrd 7 _ rfl⟩
  · cases hexec
    rw [(step_cases hstep).hRdata_eq]
    simp [hrst, hread, State.answer]
  · rw [(step_cases hstep).hRdata_eq]
    rcases hquiet with hread | hrst
    · rw [State.answer_eq_zero_of_notRead hread, ite_self]
    · rw [if_pos hrst]

/-! ### The register writes but for WR.CMD -/

/-- Settles O18: the guarded write of the two bits. -/
theorem writeCtrl : Obligations.WriteCtrl := fun s _ => congrArg Host.Outcome.next (s.unlessBusy_eq _)

/-- Settles O19: the guarded write of the data, all of which fits the register. -/
theorem writeNwordsAndCap : Obligations.WriteNwordsAndCap := by
  intro s d hd
  show execWrNwords d s = _ ∧ execWrCap d s = _
  rw [execWrNwords, execWrCap, trunc_of_lt hd, s.unlessBusy_eq, s.unlessBusy_eq]
  exact ⟨rfl, rfl⟩

/-- Settles O20: read-only registers have no write at all, busy or not. -/
theorem readOnlyWritesIgnored : Obligations.ReadOnlyWritesIgnored := fun _ _ => ⟨rfl, rfl, rfl, rfl⟩

/-! ### The commands -/

/-- Settles O22: neither command writes a register. -/
theorem nopAndReservedCommand : Obligations.NopAndReservedCommand := fun _ => ⟨rfl, rfl⟩

theorem State.busy_eq_false {s : State} (h : ¬(s.st = .fetch ∨ s.st = .scan)) : s.busy = false :=
  Bool.eq_false_iff.2 (mt s.busy_iff.1 h)

/-- Settles O23: past the guard START splits on the length alone. -/
theorem startCommand : Obligations.StartCommand := by
  intro s hst
  show (_ → execStart s = _) ∧ (_ → execStart s = _)
  rw [execStart, State.unlessBusy_notBusy _ (State.busy_eq_false hst)]
  constructor
  · intro hlegal
    rw [if_neg (Nat.not_lt.2 hlegal)]
    rfl
  · intro hlong
    rw [if_pos hlong]
    rfl

/-- Settles O24: past the guard CLEAR is `acknowledge`, and STATUS reads 0 in IDLE (R63). -/
theorem clearCommand : Obligations.ClearCommand := fun s hst =>
  ⟨s.acknowledge, congrArg Host.Outcome.next (State.unlessBusy_notBusy _ (State.busy_eq_false hst)), rfl,
    s.acknowledge.statusWord_eq⟩

/-! ### WR.CMD -/

/-- Which command a WR.CMD to a block that is not busy runs (R61, R126). -/
theorem execWrCmd_of_notBusy {s : State} (d : RegVal) (hb : s.busy = false) :
    (cmdCode d = 0 → execWrCmd d s = execNop s) ∧ (cmdCode d = 1 → execWrCmd d s = execStart s) ∧
    (cmdCode d = 2 → execWrCmd d s = execClear s) ∧ (cmdCode d = 3 → execWrCmd d s = execCmdRsv3 s) := by
  rw [execWrCmd, hb]
  refine ⟨?_, ?_, ?_, ?_⟩ <;> intro hcode <;> rw [hcode] <;> rfl

/-- Settles O21: the command that `d[1:0]` names (`execWrCmd_of_notBusy`), and then what that command does. -/
theorem writeCmdIssues : Obligations.WriteCmdIssues := by
  intro s d hst
  obtain ⟨hnop, hstart, hclear, hrsv⟩ := execWrCmd_of_notBusy d (State.busy_eq_false hst)
  obtain ⟨hbegin, _⟩ := startCommand s hst
  obtain ⟨t, hidle, ht, _⟩ := clearCommand s hst
  refine ⟨fun hcode => ?_, fun hcode => ?_, fun hcode => ?_, fun hcode => ?_⟩
  · exact ⟨hnop hcode, hnop hcode⟩
  · exact ⟨hstart hcode, fun hlegal => (hstart hcode).trans (hbegin hlegal)⟩
  · exact ⟨hclear hcode, (hclear hcode).trans (ht ▸ hidle)⟩
  · exact ⟨hrsv hcode, hrsv hcode⟩

/-- Settles O60: a busy block ignores WR.CMD; else each of the four codes runs its command (`writeCmdIssues`), and START
splits on the length (`startCommand`). -/
theorem writeCmdCompletes : Obligations.WriteCmdCompletes := by
  intro s d
  by_cases hst : s.st = .fetch ∨ s.st = .scan
  · rw [if_pos hst]
    exact execWrCmd_of_busy d (s.busy_iff.2 hst)
  · obtain ⟨hnop, hstart, hclear, hrsv⟩ := writeCmdIssues s d hst
    obtain ⟨_, hinvalid⟩ := startCommand s hst
    have hcases : ∀ c : BitVec 2, c = 0b00 ∨ c = 0b01 ∨ c = 0b10 ∨ c = 0b11 := by decide
    rw [if_neg hst]
    rcases hcases (d.extractLsb' 0 2) with hcode | hcode | hcode | hcode
    · rw [(hnop hcode).2, hcode]
      rfl
    · rw [if_pos hcode]
      split
      · next hlong => exact (hstart hcode).1.trans (hinvalid hlong)
      · next hlegal => exact (hstart hcode).2 (Nat.le_of_not_lt hlegal)
    · rw [(hclear hcode).2, hcode]
      rfl
    · rw [(hrsv hcode).2, hcode]
      rfl

end Sys2Proof.Machine

/-! PROOFS. The terms of the decode contract (43_decode_operation.md): the set bits of a word, the positions of an array and
their number (R155), and the array that the positions give back (R152). -/

namespace Sys2Proof.Machine

/-! ### The set bits of a word -/

theorem mem_bitList {w : Word} {b : Nat} : b ∈ bitList w ↔ b < 64 ∧ w.getLsbD b = true := by
  simp [bitList]

theorem pairwise_bitList (w : Word) : (bitList w).Pairwise (· < ·) := List.pairwise_lt_range.filter _

theorem length_filter_range (n : Nat) (w : Word) :
    ((List.range n).filter (fun b => w.getLsbD b)).length = onesBelow n w := by
  induction n with
  | zero => rfl
  | succ n ih =>
    rw [List.range_succ, List.filter_append, List.length_append, ih, onesBelow]
    cases h : w.getLsbD n <;> simp [h]

/-- A word has as many set bits as its population count says. -/
theorem length_bitList (w : Word) : (bitList w).length = (popcount64 w).toNat := by
  rw [popcount64_toNat, bitList, length_filter_range]

theorem length_bitList_le (w : Word) : (bitList w).length ≤ 64 := by
  rw [bitList, length_filter_range]
  exact onesBelow_le 64 w

@[simp] theorem bitList_zero : bitList 0 = [] := by
  simp [bitList]

/-- Both clear masks of a nonzero word are its isolated bit (R87, R89). -/
theorem clrMux_eq_iso64 {x : Word} (strat : Bool) (hx : x ≠ 0) : clrMux strat x = iso64 x := by
  cases strat with
  | false => exact onehot64_ctz64_eq_iso64 hx
  | true => rfl

/-- The bit that an emit takes from BITSET is the first of the set bits, and the others are left (R103, R104). -/
theorem bitList_eq_cons {x : Word} (strat : Bool) (hx : x ≠ 0) :
    bitList x = (ctz64 x).toNat :: bitList (x ^^^ clrMux strat x) := by
  have hleft (b : Nat) : b ∈ bitList (x ^^^ clrMux strat x) ↔ b ∈ bitList x ∧ b ≠ (ctz64 x).toNat := by
    rw [clrMux_eq_iso64 strat hx, mem_bitList, mem_bitList, getLsbD_xor_iso64 hx, Bool.and_eq_true, decide_eq_true_iff,
      and_assoc]
  have hfirst : (ctz64 x).toNat ∈ bitList x := mem_bitList.2 ⟨ctz64_lt hx, getLsbD_ctz64 hx⟩
  refine (pairwise_bitList x).eq_of_mem_iff (List.pairwise_cons.2 ⟨fun b hb => ?_, pairwise_bitList _⟩) fun b => ?_
  · obtain ⟨hmem, hne⟩ := (hleft b).1 hb
    have hge : ¬b < (ctz64 x).toNat := fun hlt =>
      Bool.false_ne_true ((getLsbD_of_lt_ctz64 hlt).symm.trans (mem_bitList.1 hmem).2)
    omega
  · rw [List.mem_cons, hleft]
    by_cases hb : b = (ctz64 x).toNat
    · simp [hb, hfirst]
    · simp [hb]

/-! ### The number of positions -/

theorem card_cons (w : Word) (A : List Word) : card (w :: A) = (bitList w).length + card A := by
  rw [length_bitList]
  rfl

theorem card_append (A B : List Word) : card (A ++ B) = card A + card B := by
  simp [card]

theorem card_le (A : List Word) : card A ≤ 64 * A.length := by
  induction A with
  | nil => exact Nat.le_refl 0
  | cons w A ih =>
    have := length_bitList_le w
    rw [card_cons, List.length_cons]
    omega

/-- One word more brings its own bits (R146). -/
theorem card_take_succ {A : List Word} {k : Nat} {w : Word} (hw : A[k]? = some w) :
    card (A.take (k + 1)) = card (A.take k) + (bitList w).length := by
  rw [List.take_add_one, hw, card_append]
  exact congrArg _ (card_cons w [])

theorem card_take_mono (A : List Word) {k l : Nat} (h : k ≤ l) : card (A.take k) ≤ card (A.take l) := by
  have hsplit := List.take_append_drop k (A.take l)
  rw [List.take_take, Nat.min_eq_left h] at hsplit
  rw [← hsplit, card_append]
  exact Nat.le_add_right _ _

theorem card_take_le (A : List Word) (k : Nat) : card (A.take k) ≤ card A := by
  have hsplit := card_append (A.take k) (A.drop k)
  rw [List.take_append_drop] at hsplit
  omega

theorem length_positionsFrom (j : Nat) (A : List Word) : (positionsFrom j A).length = card A := by
  induction A generalizing j with
  | nil => rfl
  | cons w A ih => rw [positionsFrom, List.length_append, List.length_map, ih, card_cons]

/-! ### The place of a position -/

/-- Bit number `m` of word `k` gives the position that comes after those of the words before it and `m` of its own word. -/
theorem getElem?_positionsFrom {A : List Word} {k m b : Nat} {w : Word} (hw : A[k]? = some w)
    (hb : (bitList w)[m]? = some b) (j : Nat) :
    (positionsFrom j A)[card (A.take k) + m]? = some (64 * (j + k) + b) := by
  induction A generalizing j k with
  | nil => simp at hw
  | cons v A ih =>
    rw [positionsFrom]
    cases k with
    | zero =>
      obtain rfl : v = w := by simpa using hw
      have hm := (List.getElem?_eq_some_iff.1 hb).1
      rw [List.take_zero, List.getElem?_append_left (by simpa [card] using hm)]
      simp [card, hb]
    | succ k =>
      rw [List.take_succ_cons, card_cons, List.getElem?_append_right (by rw [List.length_map]; omega), List.length_map,
        show (bitList v).length + card (A.take k) + m - (bitList v).length = card (A.take k) + m by omega,
        ih (by simpa using hw), show j + 1 + k = j + (k + 1) by omega]

/-- Every position comes from some bit of some word. -/
theorem exists_of_getElem?_positionsFrom {A : List Word} {j n p : Nat} (hp : (positionsFrom j A)[n]? = some p) :
    ∃ k w m b, A[k]? = some w ∧ (bitList w)[m]? = some b ∧ n = card (A.take k) + m ∧ p = 64 * (j + k) + b := by
  induction A generalizing j n with
  | nil => simp [positionsFrom] at hp
  | cons v A ih =>
    rw [positionsFrom] at hp
    rcases Nat.lt_or_ge n (bitList v).length with hn | hn
    · rw [List.getElem?_append_left (by rwa [List.length_map]), List.getElem?_map, Option.map_eq_some_iff] at hp
      obtain ⟨b, hb, rfl⟩ := hp
      exact ⟨0, v, n, b, rfl, hb, by simp [card], rfl⟩
    · rw [List.getElem?_append_right (by rwa [List.length_map]), List.length_map] at hp
      obtain ⟨k, w, m, b, hw, hb, hplace, rfl⟩ := ih hp
      refine ⟨k + 1, w, m, b, hw, hb, ?_, by omega⟩
      rw [List.take_succ_cons, card_cons]
      omega

theorem lt_of_getElem?_bitList {w : Word} {m b : Nat} (hb : (bitList w)[m]? = some b) : b < 64 :=
  (mem_bitList.1 (List.mem_of_getElem? hb)).1

/-- Position number `n`, if it is `p`, is the bit `p mod 64` of word `p div 64`, and its place in that word is what `n`
exceeds the words before it by (R155). -/
theorem getElem?_positions {A : List Word} {n p : Nat} (hp : (positions A)[n]? = some p) :
    ∃ w m, A[p / 64]? = some w ∧ (bitList w)[m]? = some (p % 64) ∧ n = card (A.take (p / 64)) + m := by
  obtain ⟨k, w, m, b, hw, hb, hn, rfl⟩ := exists_of_getElem?_positionsFrom hp
  have hlt := lt_of_getElem?_bitList hb
  rw [show (64 * (0 + k) + b) / 64 = k by omega, show (64 * (0 + k) + b) % 64 = b by omega]
  exact ⟨w, m, hw, hb, hn⟩

/-! ### R155 -/

/-- The positions name exactly the set bits of the array. -/
theorem mem_positions {A : List Word} {p : Nat} :
    p ∈ positions A ↔ ∃ w, A[p / 64]? = some w ∧ w.getLsbD (p % 64) = true := by
  constructor
  · intro h
    obtain ⟨n, hn⟩ := List.mem_iff_getElem?.1 h
    obtain ⟨w, m, hw, hb, _⟩ := getElem?_positions hn
    exact ⟨w, hw, (mem_bitList.1 (List.mem_of_getElem? hb)).2⟩
  · rintro ⟨w, hw, hset⟩
    obtain ⟨m, hm⟩ := List.mem_iff_getElem?.1 (mem_bitList.2 ⟨Nat.mod_lt p (by decide), hset⟩)
    have hplace := getElem?_positionsFrom hw hm 0
    rw [show 64 * (0 + p / 64) + p % 64 = p by omega] at hplace
    exact List.mem_of_getElem? hplace

theorem le_of_mem_positionsFrom {j p : Nat} {A : List Word} (h : p ∈ positionsFrom j A) : 64 * j ≤ p := by
  obtain ⟨n, hn⟩ := List.mem_iff_getElem?.1 h
  obtain ⟨k, w, m, b, _, _, _, rfl⟩ := exists_of_getElem?_positionsFrom hn
  omega

/-- The positions of a word end before those of the next begin, because a bit's place is below 64. -/
theorem pairwise_positionsFrom (j : Nat) (A : List Word) : (positionsFrom j A).Pairwise (· < ·) := by
  induction A generalizing j with
  | nil => exact List.Pairwise.nil
  | cons w A ih =>
    refine List.pairwise_append.2 ⟨List.pairwise_map.2 ((pairwise_bitList w).imp fun h => by omega), ih (j + 1), ?_⟩
    intro p hp q hq
    obtain ⟨b, hb, rfl⟩ := List.mem_map.1 hp
    have hb64 := (mem_bitList.1 hb).1
    have hnext := le_of_mem_positionsFrom hq
    omega

/-- Settles O56: `bits` by its definition as a selection from 0 to 63; `positions` by the place of each position, and `card`
as its length. -/
theorem positionsOfArray : Obligations.PositionsOfArray :=
  ⟨fun _ _ => mem_bitList, pairwise_bitList,
    fun A => ⟨fun _ => mem_positions, pairwise_positionsFrom 0 A, length_positionsFrom 0 A⟩⟩

/-! ### The round trip -/

/-- Setting bits one after another sets the bits that the list names, and those that were set. -/
theorem getLsbD_foldl_setBit (ps : List Nat) (v : Word) {i : Nat} (hi : i < 64) :
    (ps.foldl (fun w p => w ||| (1#64 <<< (p % 64))) v).getLsbD i = true ↔
      v.getLsbD i = true ∨ ∃ p ∈ ps, p % 64 = i := by
  induction ps generalizing v with
  | nil => simp
  | cons p ps ih =>
    have hbit : (1#64 <<< (p % 64)).getLsbD i = true ↔ p % 64 = i := by
      rw [← BitVec.twoPow_eq, BitVec.getLsbD_twoPow]
      simp
      omega
    rw [List.foldl_cons, ih, BitVec.getLsbD_or, Bool.or_eq_true, hbit, List.exists_mem_cons_iff, or_assoc]

theorem getLsbD_encodeWord (ps : List Nat) (k : Nat) {i : Nat} (hi : i < 64) :
    (encodeWord ps k).getLsbD i = true ↔ 64 * k + i ∈ ps := by
  rw [encodeWord, getLsbD_foldl_setBit _ _ hi]
  constructor
  · rintro (h | ⟨p, hp, hmod⟩)
    · simp at h
    · obtain ⟨hmem, hdiv⟩ : p ∈ ps ∧ p / 64 = k := by simpa using hp
      rwa [show 64 * k + i = p by omega]
  · intro h
    refine .inr ⟨64 * k + i, List.mem_filter.2 ⟨h, beq_iff_eq.2 (by omega)⟩, by omega⟩

theorem encodeWord_positions {A : List Word} {k : Nat} {w : Word} (hw : A[k]? = some w) :
    encodeWord (positions A) k = w := by
  refine BitVec.eq_of_getLsbD_eq fun i hi => Bool.eq_iff_iff.2 ?_
  rw [getLsbD_encodeWord _ _ hi, mem_positions, show (64 * k + i) / 64 = k by omega, show (64 * k + i) % 64 = i by omega, hw]
  simp

/-- Settles O57: word by word, the bits set are those whose positions the list names (`mem_positions`). -/
theorem reencodeGivesArray : Obligations.ReencodeGivesArray := by
  intro A
  refine List.ext_getElem (by simp [reencode]) fun k _ hk => ?_
  simp only [reencode, List.getElem_map, List.getElem_range]
  exact encodeWord_positions (List.getElem?_eq_getElem hk)

end Sys2Proof.Machine

/-! PROOFS. The steps of a decode one at a time (43_decode_operation.md): the START step (R128, R140, R151), the bounds on K,
BASE and CNT (R145, R147), the progress that every busy step keeps (R146, R148), the measure that falls (R153), and the two
stops (R154, U15). -/

namespace Sys2Proof.Machine

/-! ### The two stops -/

/-- Settles O31: an emit without room has no state to go on from (`State.emit_of_ge`), and neither has a fetch without a
word. -/
theorem hostBreachStops : Obligations.HostBreachStops :=
  ⟨fun _ hc => ⟨State.emit_of_ge hc, State.emit_of_ge hc⟩, fun _ hw => execUFetch_of_none hw⟩

/-! ### The START step -/

/-- What the host's part does when the pins of a block that is not busy present START (R128). -/
theorem HostEffect.eq_of_isStart {s t : State} (h : HostEffect s t) (hb : s.busy = false)
    (hstart : s.hostNow.isStart = true) :
    t = if s.cfg.nmax < s.nwords.toNat then s.tick.zeroScan.raise .invalidInputError else s.tick.beginDecode := by
  have hcontra (hs : s.hostNow.isStart = false) : False := Bool.false_ne_true (hs.symm.trans hstart)
  cases h with
  | quiet _ hq => exact (hcontra (hq hb).1).elim
  | read _ hs => exact (hcontra hs).elim
  | ctrl _ _ _ hs => exact (hcontra hs).elim
  | nwords _ _ _ hs => exact (hcontra hs).elim
  | cap _ _ _ hs => exact (hcontra hs).elim
  | begin _ _ _ _ hn => rw [if_neg (Nat.not_lt.2 hn)]
  | invalid _ _ _ _ hn => rw [if_pos hn]
  | clear _ _ hs => exact (hcontra hs).elim

/-- While the block is not busy the host's part is the whole step (R106). -/
theorem step_of_notBusy {s : State} (hr : s.hostNow.rst = false) (hb : s.busy = false) : step s = hostPhase s := by
  rw [step_run hr, State.selected_of_notBusy hb, andThen_hold]

theorem step_of_isStart {s : State} (hr : s.hostNow.rst = false) (hb : s.busy = false)
    (hstart : s.hostNow.isStart = true) :
    step s = .next (if s.cfg.nmax < s.nwords.toNat then s.tick.zeroScan.raise .invalidInputError
      else s.tick.beginDecode) := by
  obtain ⟨m, hm, he⟩ := hostPhase_effect s
  rw [step_of_notBusy hr hb, hm, he.eq_of_isStart hb hstart]

/-- Settles O44: the START step with a length above NMAX. -/
theorem invalidInputDecode : Obligations.InvalidInputDecode := by
  intro s hb hr hstart hlong
  rw [step_of_isStart hr hb hstart, if_pos hlong]
  rfl

/-- A launch begins a decode (R140). -/
theorem State.Launch.step_eq {s : State} {A : List Word} (h : s.Launch A) : step s = .next s.tick.beginDecode := by
  rw [step_of_isStart h.noReset h.notBusy h.startNow, if_neg (Nat.not_lt.2 h.lengthLegal)]

/-- Before the first word nothing is due and nothing is written. -/
theorem State.Launch.progress {s : State} {A : List Word} (h : s.Launch A) :
    s.tick.beginDecode.Progress A s.omem where
  lengthIs := h.lengthIs
  arrayHeld := h.arrayHeld
  betweenWords := fun _ => rfl
  insideWord := by rintro (hst | hst) <;> cases hst
  written := fun i hi => absurd hi (Nat.not_lt_zero i)
  untouched := fun _ _ => rfl

/-- Settles O49: the next state of a launch is `beginDecode`. -/
theorem progressFromStart : Obligations.ProgressFromStart := by
  intro s t A h hstep
  rw [h.step_eq] at hstep
  cases hstep
  exact ⟨rfl, h.progress⟩

/-! ### The bounds -/

/-- Settles O47: the ranges are the invariant's, and R6's bound on NMAX keeps every sum below `2^(POSW-1)`. -/
theorem noArithmeticWraps : Obligations.NoArithmeticWraps := by
  intro s h
  have hhalf := h.positions_le_half
  have hbound := h.positions_lt
  have hbase := h.baseIs
  have hk := h.kMax
  have hcnt := h.cntMax
  have hscan (hst : s.st = .scan) : s.cnt.toNat ≤ 64 * s.k.toNat + (64 - (popcount64 s.bitset).toNat) := by
    have hinside := h.cntInside hst
    have hones : (popcount64 s.bitset).toNat ≤ 64 := popcount64_toNat s.bitset ▸ onesBelow_le 64 s.bitset
    omega
  refine ⟨by omega, hk, hbase, by omega, hcnt, fun hst => h.cntBetween (.inr hst.symm), fun hst => ⟨hscan hst, h.skip_sums hst⟩,
    fun hst hz => ?_⟩
  have hrange := h.scanRange hst
  have hidx := idxMux_toNat s.strat hz
  have hlt := ctz64_lt hz
  have hpos := h.posAdd_toNat_eq (idxMux s.strat s.bitset)
  exact ⟨addPosw_toNat_of_lt (show s.cnt.toNat + 1 < _ by omega), by omega, by omega,
    hpos ▸ h.position_lt_half (idxMux s.strat s.bitset)⟩

/-- A busy step reaches DONE from FETCH with `K >= NWORDS`, and in no other way (R101, R108). -/
theorem StepCase.of_done {s t : State} (h : StepCase s t) (hb : s.busy = true) (hdone : t.st = .done) :
    s.st = .fetch ∧ s.nwords.toNat ≤ s.k.toNat ∧ t = s.answered.setSt .done := by
  cases h with
  | reset => cases hdone
  | host _ _ hnb => simp [hb] at hnb
  | fetch => cases hdone
  | finish _ hst he => exact ⟨hst, he, rfl⟩
  | skip => cases hdone
  | emit _ hst => simp [hst] at hdone
  | trap => cases hdone

/-- Settles O48: the ranges are the invariant's; in FETCH `K <= NWORDS`, so that `e` leaves `K = NWORDS` alone. -/
theorem wordIndexRange : Obligations.WordIndexRange := by
  intro s h
  have heq (hst : s.st = .fetch) (he : s.nwords.toNat ≤ s.k.toNat) : s.k = s.nwords :=
    BitVec.eq_of_toNat_eq (Nat.le_antisymm (h.fetchRange hst) he)
  refine ⟨fun hst => ⟨h.fetchRange hst, ?_⟩, fun hfetch => ?_, h.scanRange, h.busyLength, fun t hb hstep hdone => ?_⟩
  · rw [s.endPred_iff]
    exact ⟨heq hst, fun hk => hk ▸ Nat.le_refl _⟩
  · obtain ⟨hrow, _⟩ := selected_table s.st s.endPred s.zeroPred s.fullPred s.strat
    obtain ⟨_, he⟩ := hrow.1 ((s.microOp_eq_ok_iff _).1 hfetch)
    exact Nat.lt_of_not_le (of_decide_eq_false he)
  · obtain ⟨hst, he, rfl⟩ := (step_cases hstep).of_done hb hdone
    exact heq hst he

/-! ### The measure -/

theorem State.workLeft_fetch {s : State} (h : s.st = .fetch) :
    s.workLeft = 67 * (s.nwords.toNat - s.k.toNat) + 1 := by
  simp [State.workLeft, h]

theorem State.workLeft_scan {s : State} (h : s.st = .scan) :
    s.workLeft = 67 * (s.nwords.toNat - s.k.toNat - 1) + (popcount64 s.bitset).toNat + 2 := by
  simp [State.workLeft, h]

/-- Settles O51: U.FETCH gives up a word for at most 64 bits, U.EMIT gives up a bit (`popcount64_xor_clrMux`), U.SKIP passes
on to the next word, and U.FINISH and U.TRAP.CAP end the work. -/
theorem workFalls : Obligations.WorkFalls := by
  intro s t h hb hr hstep
  cases step_cases hstep with
  | reset hrst => simp [hr] at hrst
  | host _ _ hnb => simp [hb] at hnb
  | fetch w _ hst hk =>
    have hones : (popcount64 w).toNat ≤ 64 := popcount64_toNat w ▸ onesBelow_le 64 w
    rw [State.workLeft_fetch hst, State.workLeft_scan rfl]
    simp only [State.setSt_nwords, State.setSt_k, State.setSt_bitset, State.setScan_nwords, State.setScan_k,
      State.setScan_bitset, State.answered_nwords]
    omega
  | finish _ hst =>
    rw [State.workLeft_fetch hst]
    exact Nat.succ_pos _
  | skip _ hst =>
    have hrange := h.scanRange hst
    obtain ⟨hk, _⟩ := h.skip_sums hst
    rw [State.workLeft_scan hst, State.workLeft_fetch rfl]
    simp only [State.setSt_nwords, State.setSt_k, State.setScan_nwords, State.setScan_k, State.answered_nwords, hk]
    omega
  | emit _ hst hz =>
    have hbit := popcount64_xor_clrMux s.strat hz
    rw [State.workLeft_scan hst, State.workLeft_scan (by simpa using hst)]
    simp only [State.setScan_nwords, State.setScan_k, State.setScan_bitset, State.setOmem_nwords, State.answered_nwords]
    omega
  | trap _ hst =>
    rw [State.workLeft_scan hst]
    exact Nat.succ_pos _

/-! ### What a busy step's sums rely on -/

/-- The part of the invariant that the sums of a decode rely on. A launch has it, whatever the host left in the other
registers and in the memories. -/
structure State.InRange (s : State) : Prop where
  paramsLegal : s.cfg.wf
  lengthLegal : s.nwords.toNat ≤ s.cfg.nmax
  baseIs : s.base.toNat = 64 * s.k.toNat

theorem State.Inv.inRange {s : State} (h : s.Inv) (hb : s.busy = true) : s.InRange :=
  ⟨h.paramsLegal, h.busyLength hb, h.baseIs⟩

/-- R6's bound on NMAX, for the parameters alone. -/
theorem Config.positions_lt {c : Config} (h : c.wf) : 64 * c.nmax + 64 < 2 ^ c.posw.bits := by
  obtain ⟨_, hmax⟩ := h
  revert hmax
  unfold Config.nmaxBound
  cases c.posw <;> simp only [Posw.bits] <;> omega

/-- Inside a word neither sum of U.SKIP wraps (R147). -/
theorem State.InRange.skip_sums {s : State} (h : s.InRange) (hk : s.k.toNat < s.nwords.toNat) :
    (addPosw s.cfg s.k 1).toNat = s.k.toNat + 1 ∧ (addPosw s.cfg s.base 64).toNat = 64 * (s.k.toNat + 1) := by
  have hbound := Config.positions_lt h.paramsLegal
  have hlen := h.lengthLegal
  have hbase := h.baseIs
  refine ⟨addPosw_toNat_of_lt (show s.k.toNat + 1 < _ by omega), ?_⟩
  rw [addPosw_toNat_of_lt (show s.base.toNat + 64 < _ by omega), hbase]
  rfl

/-- Inside a word the position adder does not wrap (R147). -/
theorem State.InRange.posAdd_toNat {s : State} (h : s.InRange) (hk : s.k.toNat < s.nwords.toNat) (idx : BitIdx) :
    (posAdd s.cfg s.base idx).toNat = 64 * s.k.toNat + idx.toNat := by
  have hbound := Config.positions_lt h.paramsLegal
  have hlen := h.lengthLegal
  have hidx := idx.isLt
  rw [Machine.posAdd_toNat, h.baseIs, Nat.mod_eq_of_lt (by omega)]

/-! ### The progress of a decode -/

section
variable {A : List Word} {om : Memory} {s t : State}

/-- The word being scanned is a word of the array (R145). -/
theorem State.Progress.k_lt (h : s.Progress A om) (hst : s.st = .scan) : s.k.toNat < s.nwords.toNat := by
  obtain ⟨w, _, hw, _⟩ := h.insideWord (.inl hst)
  rw [h.lengthIs]
  exact (List.getElem?_eq_some_iff.1 hw).1

/-- The bits that are left of word K after its lowest ones, when there is one: it comes next, and an emit leaves the rest
(R146). -/
theorem State.Progress.bit_due (h : s.Progress A om) (hst : s.st = .scan) (hz : s.bitset ≠ 0) :
    ∃ w m, A[s.k.toNat]? = some w ∧ (bitList w)[m]? = some (ctz64 s.bitset).toNat ∧
      bitList (s.bitset ^^^ clrMux s.strat s.bitset) = (bitList w).drop (m + 1) ∧
      s.cnt.toNat = card (A.take s.k.toNat) + m := by
  obtain ⟨w, m, hw, hbits, _, hcnt⟩ := h.insideWord (.inl hst)
  rw [bitList_eq_cons s.strat hz] at hbits
  refine ⟨w, m, hw, ?_, ?_, hcnt⟩
  · rw [← Nat.add_zero m, ← List.getElem?_drop, ← hbits]
    rfl
  · rw [← List.drop_drop, ← hbits]
    rfl

/-- With a bit left, position number CNT of the array is the one that comes next (R148). -/
theorem State.Progress.position_due (h : s.Progress A om) (hst : s.st = .scan) (hz : s.bitset ≠ 0) :
    (positions A)[s.cnt.toNat]? = some (64 * s.k.toNat + (ctz64 s.bitset).toNat) := by
  obtain ⟨w, m, hw, hbit, _, hcnt⟩ := h.bit_due hst hz
  rw [hcnt, positions, getElem?_positionsFrom hw hbit, Nat.zero_add]

theorem State.Progress.cnt_lt (h : s.Progress A om) (hst : s.st = .scan) (hz : s.bitset ≠ 0) :
    s.cnt.toNat < card A := by
  rw [← length_positionsFrom 0 A]
  exact (List.getElem?_eq_some_iff.1 (h.position_due hst hz)).1

/-- A word whose bits are all emitted is counted in full (R146). -/
theorem State.Progress.cnt_of_bitsetZero (h : s.Progress A om) (hst : s.st = .scan) (hz : s.bitset = 0) :
    s.cnt.toNat = card (A.take (s.k.toNat + 1)) := by
  obtain ⟨w, m, hw, hbits, hm, hcnt⟩ := h.insideWord (.inl hst)
  rw [hz, bitList_zero, eq_comm, List.drop_eq_nil_iff] at hbits
  rw [hcnt, card_take_succ hw, Nat.le_antisymm hm hbits]

/-- The count of an emit does not wrap: no more positions are due than R6's bound allows (R147). -/
theorem State.Progress.count_sum (h : s.Progress A om) (hs : s.InRange) (hst : s.st = .scan) (hz : s.bitset ≠ 0) :
    (addPosw s.cfg s.cnt 1).toNat = s.cnt.toNat + 1 := by
  have hbound := Config.positions_lt hs.paramsLegal
  have hlen := hs.lengthLegal
  have hdue := h.cnt_lt hst hz
  have hmost := card_le A
  have hlength := h.lengthIs
  exact addPosw_toNat_of_lt (show s.cnt.toNat + 1 < _ by omega)

/-- The position that an emit writes is position number CNT of the array (R103, R104, R148). -/
theorem State.Progress.position_written (h : s.Progress A om) (hs : s.InRange) (hst : s.st = .scan) (hz : s.bitset ≠ 0) :
    some (posAdd s.cfg s.base (idxMux s.strat s.bitset)) = ((positions A)[s.cnt.toNat]?).map (BitVec.ofNat 64) := by
  rw [h.position_due hst hz, Option.map_some, ← idxMux_toNat s.strat hz, ← hs.posAdd_toNat (h.k_lt hst), BitVec.ofNat_toNat,
    BitVec.setWidth_eq]

/-- U.FETCH: every bit of word K is left, none counted. -/
theorem State.Progress.fetchWord (h : s.Progress A om) (hst : s.st = .fetch) (hk : s.k.toNat < s.nwords.toNat) {w : Word}
    (hw : Memory.read s.wmem s.k.toNat = some w) : ((s.setScan s.k s.base w s.cnt).setSt .scan).Progress A om :=
  { h with
    betweenWords := by rintro (hst | hst) <;> cases hst
    insideWord := fun _ =>
      ⟨w, 0, (h.arrayHeld _ (h.lengthIs ▸ hk)).symm.trans hw, rfl, Nat.zero_le _, h.betweenWords (.inl hst)⟩ }

/-- U.FINISH. -/
theorem State.Progress.finish (h : s.Progress A om) (hst : s.st = .fetch) : (s.setSt .done).Progress A om :=
  { h with
    betweenWords := fun _ => h.betweenWords (.inl hst)
    insideWord := by rintro (hst | hst) <;> cases hst }

/-- U.SKIP: the word that is passed is counted in full. -/
theorem State.Progress.skipWord (h : s.Progress A om) (hs : s.InRange) (hst : s.st = .scan) (hz : s.bitset = 0) :
    ((s.setScan (addPosw s.cfg s.k 1) (addPosw s.cfg s.base 64) s.bitset s.cnt).setSt .fetch).Progress A om :=
  { h with
    betweenWords := fun _ => by
      obtain ⟨hk, _⟩ := hs.skip_sums (h.k_lt hst)
      simp only [State.setSt_cnt, State.setSt_k, State.setScan_cnt, State.setScan_k, hk]
      exact h.cnt_of_bitsetZero hst hz
    insideWord := by rintro (hst | hst) <;> cases hst }

/-- U.EMIT.TZC and U.EMIT.LSB: one bit less is left, one position more is written. -/
theorem State.Progress.emitPosition (h : s.Progress A om) (hs : s.InRange) (hst : s.st = .scan) (hz : s.bitset ≠ 0) :
    ((s.setOmem (Memory.write s.omem s.cnt.toNat (posAdd s.cfg s.base (idxMux s.strat s.bitset)))).setScan s.k s.base
      (s.bitset ^^^ clrMux s.strat s.bitset) (addPosw s.cfg s.cnt 1)).Progress A om := by
  have hcount := h.count_sum hs hst hz
  refine { h with betweenWords := ?_, insideWord := fun _ => ?_, written := fun i hi => ?_, untouched := fun i hi => ?_ }
  · rintro (hst' | hst') <;> simp [hst] at hst'
  · obtain ⟨w, m, hw, hbit, hrest, hcnt⟩ := h.bit_due hst hz
    have hm := (List.getElem?_eq_some_iff.1 hbit).1
    exact ⟨w, m + 1, hw, hrest, hm, hcount.trans (congrArg (· + 1) hcnt)⟩
  · simp only [State.setScan_cnt, State.setScan_omem, State.setOmem_omem, hcount] at hi ⊢
    by_cases hlast : i = s.cnt.toNat
    · rw [hlast, Memory.read_write_same, h.position_written hs hst hz]
    · rw [Memory.read_write_other _ _ hlast, h.written i (by omega)]
  · simp only [State.setScan_cnt, State.setScan_omem, State.setOmem_omem, hcount] at hi ⊢
    rw [Memory.read_write_other _ _ (by omega), h.untouched i (by omega)]

/-- U.TRAP.CAP: what was left and what was written stay (R165). -/
theorem State.Progress.trap (h : s.Progress A om) (hst : s.st = .scan) : (s.raise .capacityError).Progress A om :=
  { h with
    betweenWords := by rintro (hst | hst) <;> cases hst
    insideWord := fun _ => h.insideWord (.inl hst) }

/-- What the host reads does not touch the progress of a decode. -/
theorem State.Progress.answered (h : s.Progress A om) : s.answered.Progress A om := { h with }

theorem State.InRange.answered (h : s.InRange) : s.answered.InRange := { h with }

/-- A busy step keeps the progress by the rule of its micro-operation. -/
theorem StepCase.progress (hstep : StepCase s t) (hr : s.hostNow.rst = false) (hb : s.busy = true) (hs : s.InRange)
    (h : s.Progress A om) : t.Progress A om := by
  cases hstep with
  | reset hrst => simp [hr] at hrst
  | host _ _ hnb => simp [hb] at hnb
  | fetch w _ hst hk hw => exact h.answered.fetchWord hst hk hw
  | finish _ hst => exact h.answered.finish hst
  | skip _ hst hz => exact h.answered.skipWord hs.answered hst hz
  | emit _ hst hz => exact h.answered.emitPosition hs.answered hst hz
  | trap _ hst => exact h.answered.trap hst

end

/-- Settles O50: the invariant gives the ranges that the sums of a busy step rely on (`StepCase.progress`). -/
theorem progressKept : Obligations.ProgressKept := fun _ _ _ _ hinv h hb hr hstep =>
  (step_cases hstep).progress hr hb (hinv.inRange hb) h

end Sys2Proof.Machine

/-! PROOFS. Whole decodes (43_decode_operation.md): the registers of a running decode tell how many steps it has taken, so
that a decode with room ends when they say so (R149), one without room ends at the position that does not fit (R150, R154),
and every decode ends within the bound (R153). -/

namespace Sys2Proof.Machine

/-! ### Runs -/

/-- A run is the run of one step less, and then a step. -/
theorem runSteps_succ_last (n : Nat) (s : State) : runSteps (n + 1) s = andThen (runSteps n s) step := by
  induction n generalizing s with
  | zero =>
    rw [runSteps_succ]
    cases hs : step s with
    | next t => exact hs.symm
    | fault r => exact hs.symm
    | refused r => exact hs.symm
  | succ n ih =>
    rw [runSteps_succ, runSteps_succ n]
    cases step s with
    | next t => exact ih t
    | fault r => rfl
    | refused r => rfl

theorem runSteps_succ_of_next {n : Nat} {s u : State} (h : runSteps n s = .next u) : runSteps (n + 1) s = step u := by
  rw [runSteps_succ_last, h]
  rfl

/-- Every step consumes its pins. -/
theorem StepCase.script_eq {s t : State} (h : StepCase s t) : t.script = s.script.tail := by
  cases h with
  | host _ _ _ he => cases he <;> rfl
  | reset => rfl
  | fetch => rfl
  | finish => rfl
  | skip => rfl
  | emit => rfl
  | trap => rfl

theorem State.noResetFor_mono {s : State} {m n : Nat} (h : s.noResetFor n) (hmn : m ≤ n) : s.noResetFor m :=
  fun p hp => h p (List.take_subset_take_left _ hmn hp)

/-- Where `rst` stays 0 for `n + 1` steps, it is 0 in the step after the first `n`. -/
theorem State.noResetFor.rst_eq_false {s u : State} {n : Nat} (h : s.noResetFor (n + 1))
    (hu : u.script = s.script.drop n) : u.hostNow.rst = false := by
  unfold State.hostNow
  split
  · rfl
  · next p rest hscript =>
    have hp : s.script[n]? = some p := by
      rw [← List.head?_drop, ← hu, hscript]
      rfl
    refine h p ?_
    rw [List.take_add_one, hp]
    exact List.mem_append_right _ List.mem_cons_self

/-! ### A running decode -/

/-- How many steps a decode has taken, START included, as its registers show it: two for each word passed and one for each
position written; one for START, and in SCAN and DONE one more, which fetched word K or finished. -/
def State.elapsed (s : State) : Nat := 2 * s.k.toNat + s.cnt.toNat + if s.st = .fetch then 1 else 2

/-- What holds of a decode of A that was launched in `s` and has neither run out of room nor met a reset. -/
structure State.Decoding (u : State) (A : List Word) (s : State) : Prop where
  progress : u.Progress A s.omem
  inRange : u.InRange
  running : u.st = .fetch ∨ u.st = .scan ∨ u.st = .done
  fetchRange : u.st = .fetch → u.k.toNat ≤ u.nwords.toNat
  doneRange : u.st = .done → u.k.toNat = u.nwords.toNat
  bitsetZero : u.st = .fetch ∨ u.st = .done → u.bitset = 0
  noError : u.errcode = 0
  room : u.cnt.toNat ≤ u.cap.toNat
  wordsKept : u.wmem = s.wmem
  configKept : u.strat = s.strat ∧ u.chk = s.chk ∧ u.nwords = s.nwords ∧ u.cap = s.cap

/-- There is room for the next position, if one is due (R206). -/
def State.hasRoom (s : State) : Prop := s.st = .scan → s.bitset ≠ 0 → s.cnt.toNat < s.cap.toNat

section
variable {A : List Word} {s t u : State}

theorem State.elapsed_fetch (h : u.st = .fetch) : u.elapsed = 2 * u.k.toNat + u.cnt.toNat + 1 := by
  simp [State.elapsed, h]

theorem State.elapsed_notFetch (h : u.st ≠ .fetch) : u.elapsed = 2 * u.k.toNat + u.cnt.toNat + 2 := by
  simp [State.elapsed, h]

/-- The launch step takes one step. -/
theorem State.Launch.decoding (h : s.Launch A) : s.tick.beginDecode.Decoding A s where
  progress := h.progress
  inRange := ⟨h.paramsLegal, h.lengthLegal, rfl⟩
  running := .inl rfl
  fetchRange := fun _ => Nat.zero_le _
  doneRange := nofun
  bitsetZero := fun _ => rfl
  noError := rfl
  room := Nat.zero_le _
  wordsKept := rfl
  configKept := ⟨rfl, rfl, rfl, rfl⟩

theorem State.Decoding.answered (h : u.Decoding A s) : u.answered.Decoding A s :=
  { h with
    progress := h.progress.answered
    inRange := h.inRange.answered }

/-- U.FETCH. -/
theorem State.Decoding.fetchWord (h : u.Decoding A s) (hst : u.st = .fetch) (hk : u.k.toNat < u.nwords.toNat) {w : Word}
    (hw : Memory.read u.wmem u.k.toNat = some w) : ((u.setScan u.k u.base w u.cnt).setSt .scan).Decoding A s :=
  { h with
    progress := h.progress.fetchWord hst hk hw
    inRange := { h.inRange with }
    running := .inr (.inl rfl)
    fetchRange := nofun
    doneRange := nofun
    bitsetZero := by rintro (hst | hst) <;> cases hst }

/-- U.FINISH. -/
theorem State.Decoding.finish (h : u.Decoding A s) (hst : u.st = .fetch) (he : u.nwords.toNat ≤ u.k.toNat) :
    (u.setSt .done).Decoding A s :=
  { h with
    progress := h.progress.finish hst
    inRange := { h.inRange with }
    running := .inr (.inr rfl)
    fetchRange := nofun
    doneRange := fun _ => Nat.le_antisymm (h.fetchRange hst) he
    bitsetZero := fun _ => h.bitsetZero (.inl hst) }

/-- U.SKIP. -/
theorem State.Decoding.skipWord (h : u.Decoding A s) (hst : u.st = .scan) (hz : u.bitset = 0) :
    ((u.setScan (addPosw u.cfg u.k 1) (addPosw u.cfg u.base 64) u.bitset u.cnt).setSt .fetch).Decoding A s := by
  have hk := h.progress.k_lt hst
  obtain ⟨hk1, hbase⟩ := h.inRange.skip_sums hk
  exact { h with
    progress := h.progress.skipWord h.inRange hst hz
    inRange := { h.inRange with baseIs := hbase.trans (congrArg (64 * ·) hk1.symm) }
    running := .inl rfl
    fetchRange := fun _ => hk1.trans_le hk
    doneRange := nofun
    bitsetZero := fun _ => hz }

/-- U.EMIT.TZC and U.EMIT.LSB. -/
theorem State.Decoding.emitPosition (h : u.Decoding A s) (hst : u.st = .scan) (hz : u.bitset ≠ 0)
    (hc : u.cnt.toNat < u.cap.toNat) :
    ((u.setOmem (Memory.write u.omem u.cnt.toNat (posAdd u.cfg u.base (idxMux u.strat u.bitset)))).setScan u.k u.base
      (u.bitset ^^^ clrMux u.strat u.bitset) (addPosw u.cfg u.cnt 1)).Decoding A s := by
  have hcount : (addPosw u.cfg u.cnt 1).toNat ≤ u.cap.toNat := h.progress.count_sum h.inRange hst hz ▸ hc
  exact { h with
    progress := h.progress.emitPosition h.inRange hst hz
    inRange := { h.inRange with }
    bitsetZero := by rintro (hst' | hst') <;> simp [hst] at hst'
    room := hcount }

/-- Every step of a busy block but a reset and a trap, which room for the next position excludes, goes on with the decode. -/
theorem State.Decoding.of_stepCase (h : u.Decoding A s) (hr : u.hostNow.rst = false) (hb : u.busy = true)
    (hroom : u.hasRoom) (hstep : StepCase u t) : t.Decoding A s := by
  cases hstep with
  | reset hrst => simp [hr] at hrst
  | host _ _ hnb => simp [hb] at hnb
  | fetch w _ hst hk hw => exact h.answered.fetchWord hst hk hw
  | finish _ hst he => exact h.answered.finish hst he
  | skip _ hst hz => exact h.answered.skipWord hst hz
  | emit _ hst hz _ hc => exact h.answered.emitPosition hst hz hc
  | trap _ hst hz _ hc => exact absurd (hroom hst hz) (Nat.not_lt.2 hc)

/-- The registers of a running decode count every step by one. -/
theorem State.Decoding.elapsed_eq (h : u.Decoding A s) (hr : u.hostNow.rst = false) (hb : u.busy = true)
    (hroom : u.hasRoom) (hstep : StepCase u t) : t.elapsed = u.elapsed + 1 := by
  cases hstep with
  | reset hrst => simp [hr] at hrst
  | host _ _ hnb => simp [hb] at hnb
  | fetch w _ hst =>
    rw [State.elapsed_fetch hst, State.elapsed_notFetch (by simp)]
    rfl
  | finish _ hst =>
    rw [State.elapsed_fetch hst, State.elapsed_notFetch (by simp)]
    rfl
  | skip _ hst =>
    obtain ⟨hk1, _⟩ := h.inRange.skip_sums (h.progress.k_lt hst)
    rw [State.elapsed_notFetch (u := u) (by simp [hst]), State.elapsed_fetch rfl]
    simp only [State.setSt_k, State.setSt_cnt, State.setScan_k, State.setScan_cnt, hk1]
    omega
  | emit _ hst hz =>
    have hcount := h.progress.count_sum h.inRange hst hz
    rw [State.elapsed_notFetch (u := u) (by simp [hst]), State.elapsed_notFetch (by simp [hst])]
    simp only [State.setScan_k, State.setScan_cnt, hcount]
    omega
  | trap _ hst hz _ hc => exact absurd (hroom hst hz) (Nat.not_lt.2 hc)

/-- A busy step completes where the word to be fetched is there and the position that is due has room (R195, R206). -/
theorem State.Progress.step_completes {om : Memory} (h : u.Progress A om) (hr : u.hostNow.rst = false)
    (hb : u.busy = true) (hroom : u.hasRoom) : ∃ t, step u = .next t := by
  rw [step_of_busy hr hb]
  rcases u.busy_iff.1 hb with hst | hst
  · rw [hst]
    cases he : u.endPred with
    | true => exact ⟨_, rfl⟩
    | false =>
      have hk : u.k.toNat < A.length := h.lengthIs ▸ Nat.lt_of_not_le (of_decide_eq_false he)
      exact ⟨_, execUFetch_of_some ((h.arrayHeld _ hk).trans (List.getElem?_eq_getElem hk))⟩
  · rw [hst]
    cases hz : u.zeroPred with
    | true => exact ⟨_, rfl⟩
    | false =>
      cases u.fullPred with
      | true => exact ⟨_, rfl⟩
      | false =>
        have hc : u.answered.cnt.toNat < u.answered.cap.toNat := hroom hst (u.zeroPred_eq_false_iff.1 hz)
        cases u.strat with
        | false => exact ⟨_, State.emit_of_lt hc⟩
        | true => exact ⟨_, State.emit_of_lt hc⟩

/-- A decode that stays busy and has room for the first `T` steps is in its `n`-th state after `n` of them. -/
theorem State.Launch.run {T : Nat} (h : s.Launch A) (hno : s.noResetFor T)
    (hgo : ∀ u : State, u.Decoding A s → u.elapsed < T → u.busy = true ∧ u.hasRoom) {n : Nat} (hn : 1 ≤ n) (hT : n ≤ T) :
    ∃ u, runSteps n s = .next u ∧ u.Decoding A s ∧ u.elapsed = n ∧ u.script = s.script.drop n := by
  induction n, hn using Nat.le_induction with
  | base =>
    refine ⟨s.tick.beginDecode, ?_, h.decoding, rfl, List.drop_one.symm⟩
    rw [runSteps_succ_of_next rfl, h.step_eq]
  | succ n hn ih =>
    obtain ⟨u, hrun, hdec, helapsed, hscript⟩ := ih (by omega)
    obtain ⟨hb, hroom⟩ := hgo u hdec (by omega)
    have hr := (State.noResetFor_mono hno hT).rst_eq_false hscript
    obtain ⟨t, hstep⟩ := hdec.progress.step_completes hr hb hroom
    have hcase := step_cases hstep
    have hcount := hdec.elapsed_eq hr hb hroom hcase
    refine ⟨t, (runSteps_succ_of_next hrun).trans hstep, hdec.of_stepCase hr hb hroom hcase, by omega, ?_⟩
    rw [hcase.script_eq, hscript, List.tail_drop]

/-! ### A decode with room -/

theorem State.Decoding.cap_eq (h : u.Decoding A s) : u.cap = s.cap := by
  obtain ⟨_, _, _, hcap⟩ := h.configKept
  exact hcap

/-- A running decode has counted at least the words it has passed, and at most the whole array. -/
theorem State.Decoding.cnt_bounds (h : u.Decoding A s) : card (A.take u.k.toNat) ≤ u.cnt.toNat ∧ u.cnt.toNat ≤ card A := by
  by_cases hst : u.st = .scan
  · obtain ⟨w, m, hw, _, hm, hcnt⟩ := h.progress.insideWord (.inl hst)
    have hnext := card_take_succ hw
    have hall := card_take_le A (u.k.toNat + 1)
    omega
  · have hcnt := h.progress.betweenWords (h.running.imp id (Or.resolve_left · hst))
    exact ⟨hcnt.ge, hcnt ▸ card_take_le A _⟩

/-- A decode is at its end exactly when its registers have counted `2*N + c + 2` steps (R149). -/
theorem State.Decoding.busy_iff (h : u.Decoding A s) : u.busy = true ↔ u.elapsed < 2 * A.length + card A + 2 := by
  obtain ⟨_, hcnt⟩ := h.cnt_bounds
  have hlen := h.progress.lengthIs
  rw [u.busy_iff]
  rcases h.running with hst | hst | hst
  · have hk := h.fetchRange hst
    rw [State.elapsed_fetch hst]
    exact iff_of_true (.inl hst) (by omega)
  · have hk := h.progress.k_lt hst
    rw [State.elapsed_notFetch (by simp [hst])]
    exact iff_of_true (.inr hst) (by omega)
  · have hk := h.doneRange hst
    have hall : u.cnt.toNat = card A := by
      rw [h.progress.betweenWords (.inr hst), hk, hlen, List.take_length]
    rw [State.elapsed_notFetch (by simp [hst])]
    exact iff_of_false (by simp [hst]) (by omega)

theorem State.Decoding.done_of_notBusy (h : u.Decoding A s) (hb : ¬u.busy = true) : u.st = .done := by
  rw [u.busy_iff] at hb
  obtain ⟨hfetch, hscan⟩ := not_or.1 hb
  exact (h.running.resolve_left hfetch).resolve_left hscan

theorem State.Decoding.hasRoom (h : u.Decoding A s) (hcap : card A ≤ s.cap.toNat) : u.hasRoom := by
  intro hst hz
  rw [h.cap_eq]
  exact (h.progress.cnt_lt hst hz).trans_le hcap

/-! ### A decode without room -/

/-- A decode whose position number CAP is `p` never passes the word of `p`. -/
theorem State.Decoding.k_le (h : u.Decoding A s) {p : Nat} (hp : (positions A)[s.cap.toNat]? = some p) :
    u.k.toNat ≤ p / 64 := by
  obtain ⟨w, m, hw, hbit, hplace⟩ := getElem?_positions hp
  obtain ⟨hpassed, _⟩ := h.cnt_bounds
  have hroom := h.cap_eq ▸ h.room
  have hm := (List.getElem?_eq_some_iff.1 hbit).1
  have hnext := card_take_succ hw
  by_contra hlt
  have hmono : card (A.take (p / 64 + 1)) ≤ card (A.take u.k.toNat) := card_take_mono A (by omega)
  omega

/-- So it never finishes. -/
theorem State.Decoding.busy_of_overflow (h : u.Decoding A s) {p : Nat} (hp : (positions A)[s.cap.toNat]? = some p) :
    u.busy = true := by
  by_contra hb
  obtain ⟨w, m, hw, _⟩ := getElem?_positions hp
  have hk := h.k_le hp
  have hlt := (List.getElem?_eq_some_iff.1 hw).1
  rw [h.doneRange (h.done_of_notBusy hb), h.progress.lengthIs] at hk
  omega

/-- As long as its registers have not counted `2*k* + CAP + 2` steps it has room. -/
theorem State.Decoding.hasRoom_of_elapsed (h : u.Decoding A s) {p : Nat} (hp : (positions A)[s.cap.toNat]? = some p)
    (helapsed : u.elapsed < 2 * (p / 64) + s.cap.toNat + 2) : u.hasRoom := by
  intro hst hz
  by_contra hfull
  have hcnt : u.cnt.toNat = u.cap.toNat := Nat.le_antisymm h.room (Nat.le_of_not_lt hfull)
  have hdue := h.progress.position_due hst hz
  rw [hcnt, h.cap_eq, hp, Option.some.injEq] at hdue
  have hbit := ctz64_lt hz
  rw [State.elapsed_notFetch (by simp [hst]), hcnt, h.cap_eq] at helapsed
  omega

/-- When they have, it stands before the position that does not fit. -/
theorem State.Decoding.overflow (h : u.Decoding A s) {p : Nat} (hp : (positions A)[s.cap.toNat]? = some p)
    (helapsed : u.elapsed = 2 * (p / 64) + s.cap.toNat + 2) :
    u.st = .scan ∧ u.bitset ≠ 0 ∧ u.cnt = s.cap ∧ u.k.toNat = p / 64 := by
  have hroom := h.cap_eq ▸ h.room
  have hk := h.k_le hp
  have hst : u.st = .scan := by
    refine (u.busy_iff.1 (h.busy_of_overflow hp)).resolve_left fun hst => ?_
    rw [State.elapsed_fetch hst] at helapsed
    omega
  rw [State.elapsed_notFetch (by simp [hst])] at helapsed
  obtain ⟨hcnt, hword⟩ : u.cnt.toNat = s.cap.toNat ∧ u.k.toNat = p / 64 := by omega
  refine ⟨hst, fun hz => ?_, BitVec.eq_of_toNat_eq hcnt, hword⟩
  obtain ⟨w, m, hw, hbit, hplace⟩ := getElem?_positions hp
  have hm := (List.getElem?_eq_some_iff.1 hbit).1
  have hpassed := h.progress.cnt_of_bitsetZero hst hz
  rw [hword, card_take_succ hw] at hpassed
  omega

/-- Checked or not, a decode without room comes to stand before the position that does not fit, and is busy until then (R150,
R154). -/
theorem State.Launch.run_to_overflow (h : s.Launch A) {p : Nat} (hp : (positions A)[s.cap.toNat]? = some p)
    (hno : s.noResetFor (2 * (p / 64) + s.cap.toNat + 3)) :
    (∀ m, 1 ≤ m → m < 2 * (p / 64) + s.cap.toNat + 3 → ∃ u, runSteps m s = .next u ∧ u.busy = true) ∧
    ∃ u, runSteps (2 * (p / 64) + s.cap.toNat + 2) s = .next u ∧ u.Decoding A s ∧ u.hostNow.rst = false ∧
      u.st = .scan ∧ u.bitset ≠ 0 ∧ u.cnt = s.cap ∧ u.k.toNat = p / 64 := by
  have hrun {n : Nat} := h.run (n := n) (State.noResetFor_mono hno (Nat.le_succ _)) fun u hdec helapsed =>
    ⟨hdec.busy_of_overflow hp, hdec.hasRoom_of_elapsed hp helapsed⟩
  constructor
  · intro m hm hlt
    obtain ⟨u, hu, hdec, _⟩ := hrun hm (Nat.le_of_lt_succ hlt)
    exact ⟨u, hu, hdec.busy_of_overflow hp⟩
  · obtain ⟨u, hu, hdec, helapsed, hscript⟩ := hrun (by omega) (Nat.le_refl _)
    exact ⟨u, hu, hdec, hno.rst_eq_false hscript, hdec.overflow hp helapsed⟩

/-- A checked block in front of a position that does not fit traps (R105). -/
theorem step_of_trap (hr : u.hostNow.rst = false) (hst : u.st = .scan) (hz : u.bitset ≠ 0) (hk : u.chk = true)
    (hc : u.cap.toNat ≤ u.cnt.toNat) : step u = .next (u.answered.raise .capacityError) := by
  rw [step_of_busy hr (u.busy_iff.2 (.inr hst)), hst, u.zeroPred_eq_false_iff.2 hz, u.fullPred_iff.2 ⟨hk, hc⟩]
  rfl

/-- An unchecked block in front of a position that does not fit stops (R154). -/
theorem step_of_overflow (hr : u.hostNow.rst = false) (hst : u.st = .scan) (hz : u.bitset ≠ 0) (hk : u.chk = false)
    (hc : u.cap.toNat ≤ u.cnt.toNat) : step u = .fault .unsafeOverflow := by
  have hfull : u.fullPred = false := u.fullPred_eq_false_iff.2 (by simp [hk])
  obtain ⟨htzc, hlsb⟩ := hostBreachStops.1 u.answered hc
  rw [step_of_busy hr (u.busy_iff.2 (.inr hst)), hst, u.zeroPred_eq_false_iff.2 hz, hfull]
  cases u.strat with
  | false => exact htzc
  | true => exact hlsb

end

/-! ### The statements -/

/-- Settles O52: with room at every step a decode runs until its registers have counted `2*N + c + 2` steps, and then it is
in DONE, where the progress says what is counted and written. -/
theorem successfulDecode : Obligations.SuccessfulDecode := by
  intro s A h hcap hno
  have hrun {n : Nat} := h.run (n := n) hno fun u hdec helapsed => ⟨hdec.busy_iff.2 helapsed, hdec.hasRoom hcap⟩
  constructor
  · intro m hm hlt
    obtain ⟨u, hu, hdec, helapsed, _⟩ := hrun hm hlt.le
    exact ⟨u, hu, hdec.busy_iff.2 (helapsed ▸ hlt)⟩
  · obtain ⟨t, ht, hdec, helapsed, _⟩ := hrun (by omega) (Nat.le_refl _)
    have hdone : t.st = .done := hdec.done_of_notBusy (mt hdec.busy_iff.1 (by omega))
    have hk : t.k.toNat = A.length := (hdec.doneRange hdone).trans hdec.progress.lengthIs
    have hcnt : t.cnt.toNat = card A := by
      rw [hdec.progress.betweenWords (.inr hdone), hk, List.take_length]
    exact ⟨t, ht, hdone, hcnt, hk, hdec.inRange.baseIs.trans (congrArg (64 * ·) hk), hdec.bitsetZero (.inr hdone),
      hdec.noError, hcnt ▸ hdec.progress.written, hcnt ▸ hdec.progress.untouched, hdec.wordsKept, hdec.configKept⟩

/-- Settles O53: the checked decode traps in front of the position that does not fit (`State.Launch.run_to_overflow`), and
the trap keeps the registers and both memories. -/
theorem capacityFaultDecode : Obligations.CapacityFaultDecode := by
  intro s A p h hchk hp hno
  obtain ⟨hbusy, u, hrun, hdec, hr, hst, hz, hcnt, hk⟩ := h.run_to_overflow hp hno
  obtain ⟨hstrat, hchk', hnwords, hcap⟩ := hdec.configKept
  obtain ⟨w, m, hw, hbits, _, hplace⟩ := hdec.progress.insideWord (.inl hst)
  have htrap := step_of_trap hr hst hz (hchk'.trans hchk) (by rw [hcap, hcnt])
  have hwritten := hdec.progress.written
  have huntouched := hdec.progress.untouched
  rw [hk] at hw hplace
  rw [hcnt] at hplace hwritten huntouched
  have hleft : bitList u.bitset = (bitList w).drop (s.cap.toNat - card (A.take (p / 64))) := by
    rw [hplace, Nat.add_sub_cancel_left]
    exact hbits
  have hbase : u.base.toNat = 64 * (p / 64) := hk ▸ hdec.inRange.baseIs
  refine ⟨hbusy, u.answered.raise .capacityError, w, (runSteps_succ_of_next hrun).trans htrap, ?_⟩
  simpa [HwError.code] using
    ⟨hcnt, hk, hbase, hz, hw, hleft, hwritten, huntouched, hdec.wordsKept, hstrat, hchk', hnwords, hcap⟩

/-- Settles O54: the unchecked decode comes to the same state and stops there. -/
theorem uncheckedOverflowDecode : Obligations.UncheckedOverflowDecode := by
  intro s A p h hchk hp hno
  obtain ⟨_, u, hrun, hdec, hr, hst, hz, hcnt, _⟩ := h.run_to_overflow hp hno
  obtain ⟨_, hchk', _, hcap⟩ := hdec.configKept
  have hstop := step_of_overflow hr hst hz (hchk'.trans hchk) (by rw [hcap, hcnt])
  exact ⟨(runSteps_succ_of_next hrun).trans hstop, u, hrun, hcnt ▸ hdec.progress.written⟩

/-- Settles O55: with room for every position the decode ends in DONE; without it, position number CAP is in some word `k*`
below NWORDS, and the decode, being checked, ends in FAULT there. -/
theorem decodeTerminates : Obligations.DecodeTerminates := by
  intro s A h hkind hno
  have hlen := h.lengthIs
  rcases Nat.lt_or_ge s.cap.toNat (card A) with hfull | hroom
  · have hchk : s.chk = true := hkind.resolve_right (Nat.not_le.2 hfull)
    have hp := List.getElem?_eq_getElem ((length_positionsFrom 0 A).symm ▸ hfull)
    obtain ⟨w, m, hw, _⟩ := getElem?_positions hp
    have hk := (List.getElem?_eq_some_iff.1 hw).1
    obtain ⟨_, t, _, ht, hfault, _⟩ := capacityFaultDecode s A _ h hchk hp (State.noResetFor_mono hno (by omega))
    refine ⟨_, t, ?_, ?_, ht, .inr hfault⟩
    · omega
    · rw [if_pos hchk, Nat.min_eq_right hfull.le]
      omega
  · obtain ⟨_, t, ht, hdone, _⟩ := successfulDecode s A h hroom (State.noResetFor_mono hno (by omega))
    refine ⟨_, t, ?_, ?_, ht, .inl hdone⟩
    · omega
    · rw [Nat.min_eq_left hroom, ite_self]
      omega

end Sys2Proof.Machine

/-! PROOFS. The strategy cannot be told from a run (R143): no instruction's effect depends on CTRL.STRAT but for that bit and
for what a read returns, and of the two emits, between which the strategy selects, each does what the other would. -/

namespace Sys2Proof.Machine

/-- A part of the machine's work does not depend on CTRL.STRAT or on the last read value: with both put aside before it, it
gives the same outcome but for them. -/
def StratBlind (f : State → Host.Outcome State Fault Refusal) : Prop :=
  ∀ s : State, outcomeExceptStrat (f s.exceptStrat) = outcomeExceptStrat (f s)

/-- Two states that differ in CTRL.STRAT and the last read value alone are the same to a blind part of the work. -/
theorem StratBlind.congr {f : State → Host.Outcome State Fault Refusal} (hf : StratBlind f) {s t : State}
    (h : s.exceptStrat = t.exceptStrat) : outcomeExceptStrat (f s) = outcomeExceptStrat (f t) :=
  (hf s).symm.trans (h ▸ hf t)

theorem StratBlind.next {f : State → State} (h : ∀ s, (f s.exceptStrat).exceptStrat = (f s).exceptStrat) :
    StratBlind fun s => .next (f s) :=
  fun s => congrArg Host.Outcome.next (h s)

theorem StratBlind.andThen_exceptStrat {g : State → Host.Outcome State Fault Refusal} (hg : StratBlind g)
    (o : Host.Outcome State Fault Refusal) :
    outcomeExceptStrat (andThen (outcomeExceptStrat o) g) = outcomeExceptStrat (andThen o g) := by
  cases o with
  | next t => exact hg t
  | fault r => rfl
  | refused r => rfl

/-- One blind part of the work after another is blind. -/
theorem StratBlind.andThen {f g : State → Host.Outcome State Fault Refusal} (hf : StratBlind f) (hg : StratBlind g) :
    StratBlind fun s => andThen (f s) g := fun s =>
  calc outcomeExceptStrat (Machine.andThen (f s.exceptStrat) g)
      = outcomeExceptStrat (Machine.andThen (outcomeExceptStrat (f s.exceptStrat)) g) := (hg.andThen_exceptStrat _).symm
    _ = outcomeExceptStrat (Machine.andThen (outcomeExceptStrat (f s)) g) := by rw [hf s]
    _ = outcomeExceptStrat (Machine.andThen (f s) g) := hg.andThen_exceptStrat _

/-- A guarded host write is blind where the write is (R131). -/
theorem StratBlind.unlessBusy {f : State → State} (h : ∀ s, (f s.exceptStrat).exceptStrat = (f s).exceptStrat) :
    StratBlind fun s => .next (s.unlessBusy (f s)) :=
  .next fun s => by
    show (if s.busy then s.exceptStrat else f s.exceptStrat).exceptStrat = (if s.busy then s else f s).exceptStrat
    cases s.busy
    · exact h s
    · rfl

theorem stratBlind_start : StratBlind execStart :=
  .unlessBusy fun s => by
    show (if s.cfg.nmax < s.nwords.toNat then s.exceptStrat.zeroScan.raise .invalidInputError
      else s.exceptStrat.beginDecode).exceptStrat = _
    split <;> rfl

/-- WR.CMD is ignored or runs one of the four commands, whatever the strategy (R126, R131). -/
theorem stratBlind_wrCmd (d : RegVal) : StratBlind (execWrCmd d) := fun s => by
  by_cases hst : s.st = .fetch ∨ s.st = .scan
  · have hb := s.busy_iff.2 hst
    rw [execWrCmd_of_busy (s := s.exceptStrat) d hb, execWrCmd_of_busy d hb]
    rfl
  · have hb := State.busy_eq_false hst
    obtain ⟨hnop', hstart', hclear', hrsv'⟩ := execWrCmd_of_notBusy (s := s.exceptStrat) d hb
    obtain ⟨hnop, hstart, hclear, hrsv⟩ := execWrCmd_of_notBusy d hb
    have hcases : ∀ c : BitVec 2, c = 0 ∨ c = 1 ∨ c = 2 ∨ c = 3 := by decide
    rcases hcases (cmdCode d) with h | h | h | h
    · rw [hnop' h, hnop h]; rfl
    · rw [hstart' h, hstart h]; exact stratBlind_start s
    · rw [hclear' h, hclear h]; exact StratBlind.unlessBusy (f := State.acknowledge) (fun _ => rfl) s
    · rw [hrsv' h, hrsv h]; rfl

theorem stratBlind_uFetch : StratBlind execUFetch := fun s => by
  cases hw : s.memRead s.k with
  | some w => rw [execUFetch_of_some (s := s.exceptStrat) hw, execUFetch_of_some hw]; rfl
  | none => rw [execUFetch_of_none (s := s.exceptStrat) hw, execUFetch_of_none hw]

/-- An emit with an index and a mask that BITSET gives, as each of the two emits has, does not look at the strategy. -/
theorem stratBlind_emit (idx : Word → BitIdx) (clr : Word → Word) :
    StratBlind fun s => s.emit (idx s.bitset) (clr s.bitset) := fun s => by
  show outcomeExceptStrat (s.exceptStrat.emit (idx s.bitset) (clr s.bitset)) =
    outcomeExceptStrat (s.emit (idx s.bitset) (clr s.bitset))
  by_cases hc : s.cnt.toNat < s.cap.toNat
  · rw [State.emit_of_lt (s := s.exceptStrat) hc, State.emit_of_lt hc]
    rfl
  · rw [State.emit_of_ge (s := s.exceptStrat) (Nat.le_of_not_lt hc), State.emit_of_ge (Nat.le_of_not_lt hc)]

/-- No instruction's effect depends on the strategy: only a read of CTRL shows it. -/
theorem stratBlind_exec (i : Instr) : StratBlind (exec i) := by
  cases i with
  | rd a => exact .next fun _ => rfl
  | wrCtrl d => exact .unlessBusy fun _ => rfl
  | wrCmd d => exact stratBlind_wrCmd d
  | wrStatus d => exact .next fun _ => rfl
  | wrNwords d => exact .unlessBusy fun _ => rfl
  | wrCap d => exact .unlessBusy fun _ => rfl
  | wrCard d => exact .next fun _ => rfl
  | wrErrcode d => exact .next fun _ => rfl
  | wrRsv7 d => exact .next fun _ => rfl
  | nop => exact .next fun _ => rfl
  | start => exact stratBlind_start
  | clear => exact .unlessBusy fun _ => rfl
  | cmdRsv3 => exact .next fun _ => rfl
  | uFetch => exact stratBlind_uFetch
  | uFinish => exact .next fun _ => rfl
  | uSkip => exact .next fun _ => rfl
  | uEmitTzc => exact stratBlind_emit (fun x => (ctz64 x).extractLsb' 0 6) (fun x => onehot64 ((ctz64 x).extractLsb' 0 6))
  | uEmitLsb => exact stratBlind_emit (fun x => (popcount64 (below64 (iso64 x))).extractLsb' 0 6) iso64
  | uTrapCap => exact .next fun _ => rfl
  | uHold => exact .next fun _ => rfl

/-- The pins do not depend on the strategy, and neither does the access they present. -/
theorem stratBlind_hostPhase : StratBlind hostPhase := fun s => by
  cases hv : s.hostNow.hValid with
  | false => rw [hostPhase_of_noAccess (s := s.exceptStrat) hv, hostPhase_of_noAccess hv]; rfl
  | true =>
    rw [hostPhase_of_access (s := s.exceptStrat) hv, hostPhase_of_access hv]
    exact (stratBlind_exec _).congr rfl

/-- The strategy selects between the two emits alone, and with a bit due they do the same (R86, R87, R143). -/
theorem exec_selected_strat (s : State) (strat : Bool) :
    exec (selected s.st s.endPred s.zeroPred s.fullPred strat) s.answered =
      exec (selected s.st s.endPred s.zeroPred s.fullPred false) s.answered := by
  cases s.st with
  | idle => rfl
  | done => rfl
  | fault => rfl
  | fetch => rfl
  | scan =>
    cases hz : s.zeroPred with
    | true => rfl
    | false =>
      have hemits := execUEmitTzc_eq_execUEmitLsb (s := s.answered) (s.zeroPred_eq_false_iff.1 hz)
      cases s.fullPred with
      | true => rfl
      | false =>
        cases strat with
        | false => rfl
        | true => exact hemits.symm

/-- A step does not depend on the strategy: what the host does is blind to it, and what the scanner does is the same under
either. -/
theorem stratBlind_step : StratBlind step := fun s => by
  cases hr : s.hostNow.rst with
  | true => rw [step_reset (s := s.exceptStrat) hr, step_reset hr]; rfl
  | false =>
    cases hb : s.busy with
    | false =>
      rw [step_of_notBusy (s := s.exceptStrat) hr hb, step_of_notBusy hr hb]
      exact stratBlind_hostPhase s
    | true =>
      rw [step_of_busy (s := s.exceptStrat) hr hb, step_of_busy hr hb, exec_selected_strat s s.strat]
      exact (stratBlind_exec _).congr rfl

theorem stratBlind_runSteps (n : Nat) : StratBlind (runSteps n) := by
  induction n with
  | zero => exact .next fun _ => rfl
  | succ n ih =>
    have hrun : runSteps (n + 1) = fun s => andThen (step s) (runSteps n) := funext (runSteps_succ n)
    exact hrun ▸ stratBlind_step.andThen ih

/-- Settles O58: a run is blind to the strategy, because each of its steps is. -/
theorem strategyIndependence : Obligations.StrategyIndependence := fun n _ _ => (stratBlind_runSteps n).congr rfl

end Sys2Proof.Machine

/-! PROOFS. The statements about errors and stops (60_exceptions.md): a step stops only where the host broke a duty (R163,
R195, R206), and DONE and FAULT hold until the host acts (R168, R170). -/

namespace Sys2Proof.Machine

section
variable {s t : State}

/-! ### Steps that complete -/

/-- In FETCH a step stops only for a word that is not there: past the array U.FINISH needs none (R195). -/
theorem step_completes_of_fetch (hr : s.hostNow.rst = false) (hst : s.st = .fetch)
    (hword : s.k.toNat < s.nwords.toNat → (s.memRead s.k).isSome = true) : ∃ t, step s = .next t := by
  rw [step_of_busy hr (s.busy_iff.2 (.inl hst)), hst]
  cases he : s.endPred with
  | true => exact ⟨_, rfl⟩
  | false =>
    have hk : s.k.toNat < s.nwords.toNat := Nat.lt_of_not_le (of_decide_eq_false he)
    obtain ⟨w, hw⟩ := Option.isSome_iff_exists.1 (hword hk)
    exact ⟨_, execUFetch_of_some (s := s.answered) hw⟩

/-- In SCAN a step stops only for a position without room that the block does not check: with checking on, an emit is selected
below CAP alone, else U.TRAP.CAP (R67, R206). -/
theorem step_completes_of_scan (hr : s.hostNow.rst = false) (hst : s.st = .scan)
    (hroom : s.bitset ≠ 0 → s.chk = false → s.cnt.toNat < s.cap.toNat) : ∃ t, step s = .next t := by
  rw [step_of_busy hr (s.busy_iff.2 (.inr hst)), hst]
  cases hz : s.zeroPred with
  | true => exact ⟨_, rfl⟩
  | false =>
    cases hf : s.fullPred with
    | true => exact ⟨_, rfl⟩
    | false =>
      have hc : s.answered.cnt.toNat < s.answered.cap.toNat := by
        cases hk : s.chk with
        | false => exact hroom (s.zeroPred_eq_false_iff.1 hz) hk
        | true => exact Nat.lt_of_not_le fun hle => s.fullPred_eq_false_iff.1 hf ⟨hk, hle⟩
      cases s.strat with
      | false => exact ⟨_, State.emit_of_lt hc⟩
      | true => exact ⟨_, State.emit_of_lt hc⟩

/-- A block that is not busy runs the host's access alone, and every access completes (R106, R163). -/
theorem step_completes_of_notBusy (hr : s.hostNow.rst = false) (hb : s.busy = false) : ∃ t, step s = .next t := by
  obtain ⟨t, ht, _⟩ := hostPhase_effect s
  exact ⟨t, (step_of_notBusy hr hb).trans ht⟩

/-! ### What the host can change without a command -/

/-- Without START and CLEAR the host's part of a step writes configuration registers and `h_rdata` alone, besides consuming
the pins (R121 to R125). -/
theorem HostEffect.eq_of_noCommand (h : HostEffect s t) (hstart : s.hostNow.isStart = false)
    (hclear : s.hostNow.isClear = false) :
    t = { s with strat := t.strat, chk := t.chk, nwords := t.nwords, cap := t.cap, script := t.script,
                 hRdata := t.hRdata } := by
  cases h with
  | quiet => rfl
  | read => rfl
  | ctrl => rfl
  | nwords => rfl
  | cap => rfl
  | begin _ _ hs => exact (Bool.false_ne_true (hstart.symm.trans hs)).elim
  | invalid _ _ hs => exact (Bool.false_ne_true (hstart.symm.trans hs)).elim
  | clear _ _ _ hc => exact (Bool.false_ne_true (hclear.symm.trans hc)).elim

/-- While the block is not busy a step without reset does what the host does, and nothing else (R106). -/
theorem HostEffect.of_step (hr : s.hostNow.rst = false) (hb : s.busy = false) (h : step s = .next t) : HostEffect s t := by
  obtain ⟨m, hm, he⟩ := hostPhase_effect s
  obtain rfl : m = t := Host.Outcome.next.inj (hm.symm.trans ((step_of_notBusy hr hb).symm.trans h))
  exact he

end

/-! ### The statements -/

/-- Settles O37: a reset step completes in every state, any other by the part that ST selects: in FETCH and in SCAN the duty
rules the stop out, and in IDLE, DONE and FAULT nothing can stop. -/
theorem stepCompletes : Obligations.StepCompletes := by
  intro s hduty
  cases hr : s.hostNow.rst with
  | true => exact ⟨_, step_reset hr⟩
  | false =>
    obtain ⟨hword, hroom⟩ := hduty.resolve_left (Bool.eq_false_iff.1 hr)
    cases hst : s.st with
    | fetch => exact step_completes_of_fetch hr hst (hword hst)
    | scan => exact step_completes_of_scan hr hst (hroom hst)
    | idle => exact step_completes_of_notBusy hr (s.notBusy_iff.2 (.inl hst))
    | done => exact step_completes_of_notBusy hr (s.notBusy_iff.2 (.inr (.inl hst)))
    | fault => exact step_completes_of_notBusy hr (s.notBusy_iff.2 (.inr (.inr hst)))

/-- Settles O41: in DONE and FAULT the step is the host's part, which without a command leaves the scanner and the output
memory alone (`HostEffect.eq_of_noCommand`). -/
theorem doneAndFaultHold : Obligations.DoneAndFaultHold := by
  intro s t hst hr hstart hclear hstep
  have he := HostEffect.of_step hr (s.notBusy_iff.2 (.inr hst)) hstep
  rw [he.eq_of_noCommand hstart hclear]
  exact ⟨rfl, rfl, rfl, rfl, rfl, rfl, rfl⟩

end Sys2Proof.Machine

/-! PROOFS. The statement about the reset step (70_reset_and_hazards.md, R190). -/

namespace Sys2Proof.Machine

/-- What reset does to the whole state: the fields that keep their value are the parameters, the two memories,
and the host's part of the interface. -/
theorem State.applyReset_eq (s : State) :
    s.applyReset = { s with st := .idle, errcode := 0, k := 0, base := 0, bitset := 0, cnt := 0, strat := false, chk := true,
                            nwords := 0, cap := 0 } := rfl

/-- Settles O38: with `rst = 1` the write enable is 0 (`State.oWe_of_reset`), and the step is `applyReset` with the pins
consumed and no value read, so that neither the host's access nor the micro-operation has a part in it. -/
theorem resetStep : Obligations.ResetStep := by
  intro s hr
  refine ⟨State.oWe_of_reset hr, ?_⟩
  rw [step_reset hr, State.applyReset_eq]
  rfl

end Sys2Proof.Machine

/-! PROOFS. The words written out from the encoding tables (30_encoding.md): each is an entry of a table settled above, but
for the refusal, which no table states. -/

namespace Sys2Proof.Machine

/-- A row of R67 that takes a vector of the busy half has FETCH or SCAN in its ST field. -/
theorem St.code_eq_of_inRow_busy {c : BitVec 3} {x : BitVec 4} {u : Instr} (hu : u ∈ uops) (hbusy : c.getLsbD 2 = true)
    (hrow : (Code.uop (c ++ x)).inRow (opcodeRow u) = true) : c = St.fetch.code ∨ c = St.scan.code := by
  revert u c x
  decide

/-- A vector that lies in no row of R67 is refused by name. -/
theorem decodeUop_eq_error_of_not_inRow {dv : BitVec 7} (h : ∀ u ∈ uops, ¬ (Code.uop dv).inRow (opcodeRow u) = true) :
    decodeUop dv = .error (.noDispatchRow dv) := by
  unfold decodeUop
  rw [List.find?_eq_none.2 h]

/-- The refused vectors: the ST field has the BUSY bit set and is the code of no busy state. The unused code 011, with
that bit clear, is not among them: U.HOLD takes it. -/
theorem decodeUop_eq_error_of_busy {c : BitVec 3} (hbusy : c.getLsbD 2 = true) (hfetch : c ≠ St.fetch.code)
    (hscan : c ≠ St.scan.code) (x : BitVec 4) : decodeUop (c ++ x) = .error (.noDispatchRow (c ++ x)) :=
  decodeUop_eq_error_of_not_inRow fun _ hu hrow => (St.code_eq_of_inRow_busy hu hbusy hrow).elim hfetch hscan

/-- Settles O8: the accepted words are entries of the tables of R60, R61 and R67; the last word has ST 110, which is
refused whatever the predicates are. -/
theorem decodedWords : Obligations.DecodedWords := by
  obtain ⟨hread, -⟩ := regTransactionTable 0 5
  obtain ⟨-, -, -, -, hnwords, -⟩ := regTransactionTable 2 0
  obtain ⟨-, hstart, -⟩ := commandTable 0b101
  obtain ⟨hfetch, -⟩ := microOpSelectionTable.1 0b1000101
  obtain ⟨-, -, hskip, -⟩ := microOpSelectionTable.1 0b1010110
  have hrefused := decodeUop_eq_error_of_busy (c := 0b110) rfl (by decide) (by decide) 0b1000
  exact ⟨hread, hnwords, hstart rfl, hfetch.2 rfl, hskip.2 rfl, hrefused⟩

end Sys2Proof.Machine
